-- ==== Sys2Proof/Word.lean ====
section
/-! DEFINITION. The word types of the SX-48: bytes of frames and records, and the bounded index types
of the manual's named items (00_scope.md, "Naming of items"). -/

namespace Sys2Proof

/-- One byte of a frame or of a table record (chapter 12). -/
abbrev Byte := BitVec 8

/-- Switch element `E0`–`E47`. -/
abbrev Elem := Fin 48

/-- Bank `BK0`–`BK5`. -/
abbrev Bank := Fin 6

/-- A position `0`–`6` of an element, or the number of one of its throws (R3, R9).
`UNKNOWN` is no position: it is the absence of one (`Option Pos`). -/
abbrev Pos := Fin 7

end Sys2Proof
end

