-- ==== Sys2Proof/Syntax.lean ====
section
/-! DEFINITION. The commands of the SX-48: one constructor of `Instr` for each row of the manual's table of
operations and events. Each command is one step of the part, whole and indivisible, with what the outside
world contributes to it as its operands (assumption log 1). -/

namespace Sys2Proof

/-- The two chain ports (R129). -/
inductive Port | a | b
deriving DecidableEq, Repr

/-- A flow mark (R147). -/
inductive Mark | go | pause
deriving DecidableEq, Repr

/-- The state of a port's link (R129). -/
inductive LinkState | down | up
deriving DecidableEq, Repr

/-- The settings of the MARGIN strap: 2, 3, 5 or 8 free entries (R134). -/
inductive Margin | two | three | five | eight
deriving DecidableEq, Repr

/-- The settings of the SENSE strap (R134). -/
inductive Sense | even | odd
deriving DecidableEq, Repr

/-- The coil supply as its monitor reports it (R82). -/
inductive Supply | good | low
deriving DecidableEq, Repr

/-- What the part takes from its pins at power-on and at the release of RESET_N: the three straps (R134), the
link states (R129), the supply state (R82) and the levels of X0–X3 (R179). -/
structure Pins where
  addr : BitVec 6
  margin : Margin
  sense : Sense
  linkA : LinkState
  linkB : LinkState
  supply : Supply
  levels : Vector Bool 4
deriving DecidableEq, Repr

/-- The instant and the header fields of a MGMT_REQ frame that carries a management command (R131, R152). -/
structure ReqHead where
  /-- the instant of arrival, µs -/
  time : Nat
  /-- destination address: this node's address or 63 reach the Management Agent -/
  dest : Byte
  src : Byte
  tag : BitVec 16
deriving DecidableEq, Repr

/-- The commands, in the order of the table of operations and events. `time` is the instant, in µs, at which
the event falls; the events that a timer of the part brings about carry none, since the part's own state names
their instant (assumption log 2). -/
inductive Instr
  /-- POWER_ON (R134) -/
  | powerOn (time : Nat) (pins : Pins)
  /-- RESET_N: its assertion (R68) -/
  | resetN (time : Nat)
  /-- RESET_N_RELEASE (R134) -/
  | resetNRelease (time : Nat) (pins : Pins)
  /-- LEVEL_CONDITIONS_READ (R178) -/
  | levelConditionsRead (time : Nat)
  /-- LINK_UP (R129) -/
  | linkUp (time : Nat) (port : Port)
  /-- LINK_DOWN (R129) -/
  | linkDown (time : Nat) (port : Port)
  /-- FRAME_RECEIVED: the bytes of a whole frame, as the receiver counted them (R132) -/
  | frameReceived (time : Nat) (port : Port) (bytes : List Byte)
  /-- FLOW_MARK_RECEIVED (R147) -/
  | flowMarkReceived (time : Nat) (port : Port) (mark : Mark)
  /-- TRANSMISSION_END (R130) -/
  | transmissionEnd (time : Nat) (port : Port)
  /-- SPAN_VERDICT (R52) -/
  | spanVerdict (time : Nat)
  /-- GRACE_TIMER_EXPIRY (R54) -/
  | graceTimerExpiry
  /-- DWELL_TIMER_EXPIRY (R56) -/
  | dwellTimerExpiry
  /-- ROUTE_REQUEST_COMPLETE (R61) -/
  | routeRequestComplete (time : Nat)
  /-- PULSE_END (R70) -/
  | pulseEnd (e : Elem)
  /-- PULSE_LAND (R71) -/
  | pulseLand (e : Elem)
  /-- BANK_RECOVERY_REACHED (R73) -/
  | bankRecoveryReached (b : Bank)
  /-- LOCKOUT_ELAPSED (R72) -/
  | lockoutElapsed (e : Elem)
  /-- VCOIL_LOW (R83) -/
  | vcoilLow (time : Nat)
  /-- SUPPLY_RETURN (R85) -/
  | supplyReturn (time : Nat)
  /-- VERIFY_COMPLETE: the contacts read, one set of closed contacts for each element of the bank in ascending
  order, bit p for position p (R91, R94) -/
  | verifyComplete (contacts : List (BitVec 7))
  /-- SLOT_TIMER_EXPIRY (R98) -/
  | slotTimerExpiry
  /-- IDLE_LEAD_EXPIRY (R99) -/
  | idleLeadExpiry
  /-- LOAD (R153) -/
  | load (head : ReqHead) (table : Byte) (index : BitVec 16) (record : List Byte)
  /-- FETCH (R156) -/
  | fetch (head : ReqHead) (table : Byte) (index : BitVec 16)
  /-- ENTER_RUN (R109) -/
  | enterRun (head : ReqHead)
  /-- VALIDATION_COMPLETE (R113) -/
  | validationComplete (time : Nat)
  /-- RESUME (R123) -/
  | resume (head : ReqHead)
  /-- ENTER_CONFIG (R124) -/
  | enterConfig (head : ReqHead)
  /-- ENTER_SAFE (R125) -/
  | enterSafe (head : ReqHead)
  /-- TRIP: the Mode Controller takes the oldest trip request (R117) -/
  | trip (time : Nat)
  /-- VERIFY_ALL (R105) -/
  | verifyAll (head : ReqHead)
  /-- VERIFY_BANK (R104) -/
  | verifyBank (head : ReqHead) (bank : Byte)
  /-- READ_CLEAR_EVENTS (R176) -/
  | readClearEvents (head : ReqHead) (mask : BitVec 16)
  /-- CLEAR_COUNTERS (R162) -/
  | clearCounters (head : ReqHead)
  /-- SET_MARKER (R163) -/
  | setMarker (head : ReqHead) (value : BitVec 32)
  /-- SOFT_RESET (R165) -/
  | softReset (head : ReqHead)
  /-- PRESENTED_SIGNAL_CHANGE: the level sampled at one line changes (R184) -/
  | presentedSignalChange (time : Nat) (line : Fin 4) (level : Bool)
deriving DecidableEq, Repr

end Sys2Proof
end

