-- ==== Sys2Proof/Decode.lean ====
section
/-! DEFINITION. Decoding of table words. The SX-48 is a block, not a processor: no row of the table of
operations and events has an encoding (every row's field list is empty), so no word spells a command. Frames
that carry management requests are decoded in Machine/Operands.lean and Machine/Manage.lean. -/

namespace Sys2Proof

/-- The command that a word spells by the table's bits: none, since no row gives bits. -/
def decodeTableWord (_nbits _w : Nat) : Option Instr := none

end Sys2Proof
end

