-- ==== Sys2Proof/Config.lean ====
section
/-! DEFINITION. The fixed figures of the part, and the free values: the choices and values the manual
leaves open. A free value is an opaque constant applied to the model's choice counter, so nothing can be
proved about which choice is made (assumption logs 4, 5 and 33). -/

namespace Sys2Proof.Config

/-- The fixed verify time, µs (R92). -/
def verifyTime : Nat := 1500

/-- Forward Queue capacity, frames (R136). -/
def fwdCapacity : Nat := 32

/-- Return Queue capacity, frames (R136). -/
def retCapacity : Nat := 24

/-- The greatest number of payload bytes of a frame (R131, R132). -/
def maxPayload : Nat := 240

/-- The greatest number of endpoints of one source in a span evaluation (R20). -/
def endpointLimit : Nat := 512

/-- The value at which a wear count stops (R79). -/
def wearCap : Nat := 16777215

/-- The value at which a 16-bit counter stops (R149, R177). -/
def counterCap : Nat := 65535

/-- The value at which the elapsed time of a step stops, µs (R58). -/
def elapsedCap : Nat := 4294967295

/-- The bound of a partial sum of a route loss, hundredths of a dB (R33). -/
def lossClamp : Int := 32767

/-- The latest completion of a span evaluation after its start, µs (R22). -/
def evaluationBound : Nat := 2000

/-- The latest completion of a route request after it is made, µs (R31). -/
def routeBound : Nat := 200

/-- The latest completion of a table validation after it begins, µs (R110). -/
def validationBound : Nat := 4000

/-- Fuel of the span walk: no walk of the 8 sources can take this many moves, because a branch passes at
most 48 elements and splits at most seven ways at each (R18, R19). -/
def walkFuel : Nat := 8 * 7 ^ 50

/-- Fuel of the drawing of consequences within one event (assumption log 6). -/
def settleFuel : Nat := 4096

/-- FREE VALUE (R74): whether a verify start is taken before a launch pass that falls in the same event and
would launch into the same bank. -/
opaque verifyBeforeLaunch : Nat → Bool

/-- FREE VALUE (R101): whether an ordinary or pull-in verify is chosen before a take that falls in the same
event. -/
opaque verifyBeforeTake : Nat → Bool

/-- FREE VALUE (R154): whether the transmitter of Port B begins the copy of a broadcast SOFT_RESET before the flush of that
reset, where it could begin it in the same event (assumption log 33). -/
opaque copyBeforeFlush : Nat → Bool

/-- FREE VALUE (R62, section 12.3): the bytes of an empty ROUTE record after the 0xFF that marks it empty. -/
opaque emptyRouteByte : Nat → Nat → Byte

end Sys2Proof.Config
end

