-- ==== Sys2Proof/Machine/State.lean ====
section
/-! DEFINITION. The state of the SX-48: everything the manual gives each of its twelve blocks, as plain data,
one structure per block, and the queue of commands that wait. INVENTORY.md lists each field with its rule. -/

namespace Sys2Proof.Machine

/-! ## Topology and tables (chapters 1 to 3, 8) -/

/-- Construction of an element class (R2). -/
inductive ClassKind | latchMulti | latchTransfer | solid
deriving DecidableEq, Repr

/-- A present CLASS record (R2). Times in µs, current in mA; `wearLimit` 0 means none. -/
structure ClassRec where
  kind : ClassKind
  throws : Nat
  width : Nat
  settle : Nat
  current : Nat
  recovery : Nat
  lockout : Nat
  sense : Bool
  wearLimit : Nat
deriving DecidableEq, Repr

/-- An ELEMENT record (R5). -/
inductive ElemRec
  | absent
  | fitted (c : Fin 8)
  | notFitted
deriving DecidableEq, Repr

/-- A node of the switch topology (R1). The throw number of a throw node of a stored record is 1–6 (R7). -/
inductive Node
  | source (s : Fin 8)
  | terminal (t : Fin 32)
  | common (e : Elem)
  | throw (e : Elem) (k : Pos)
deriving DecidableEq, Repr

/-- A loss row: eight values in hundredths of a dB, one per grid point (R27). -/
abbrev LossRow := Vector Int 8

/-- A present LINK record with its loss row, present or absent (R7, R28). -/
structure LinkRec where
  a : Node
  b : Node
  row : Option LossRow
deriving DecidableEq, Repr

/-- A present PATH record (R40). The bank mask has bit b for BKb. Targets of unmasked banks are held as 0 and
are no part of the record. -/
structure PathRec where
  mask : BitVec 6
  targets : Vector Pos 48
  hold : Bool
  dwell : Nat
  report : List (Fin 8)
deriving DecidableEq, Repr

/-- The CORE record (R157): coil budget in mA, safe index, slot interval in s. -/
structure CoreRec where
  budget : Nat
  safeIndex : Option (Fin 256)
  slotInterval : Nat
deriving DecidableEq, Repr

/-- The RUNTIME record (R158): idle lead and mute grace in ms; alert mask with 1 for masked; trip mask with
1 for enabled, bits 0–5 MISMATCH0–5, bit 6 VCOIL_LOW, bit 7 DOOR (12.6). -/
structure RuntimeRec where
  idleLead : Nat
  muteGrace : Nat
  alertMask : BitVec 16
  tripMask : BitVec 8
deriving DecidableEq, Repr

/-- The Table Store's state (00_scope, R4–R7, R24–R30, R40, R80, R157, R158, R164). -/
structure Tbs where
  classes : Vector (Option ClassRec) 8
  elements : Vector ElemRec 48
  links : Vector (Option LinkRec) 160
  interlock : Vector (Option (Fin 8 × Fin 32)) 64
  core : CoreRec
  /-- one slot per element and throw position 1–6, position p at index p − 1 (R29) -/
  eloss : Vector (Vector (Option LossRow) 6) 48
  tcorr : Vector (Option LossRow) 32
  grid : Option (Vector Nat 8)
  runtime : RuntimeRec
  wear : Vector Nat 48
  paths : Vector (Option PathRec) 256
  marker : BitVec 32
deriving DecidableEq, Repr

/-! ## Chain link and queues (chapter 7) -/

/-- A frame: its header fields, payload and check byte (R131). -/
structure Frame where
  kind : Byte
  dest : Byte
  src : Byte
  tag : BitVec 16
  payload : List Byte
  check : Byte
deriving DecidableEq, Repr

/-- Which container holds the frame that a transmitter is sending (R130). -/
inductive TxSource | urgentSlot | forwardHead | returnHead
deriving DecidableEq, Repr

/-- A transmission in progress: where its frame stands, the bytes being sent, and whether a SOFT_RESET has
flushed the frame meanwhile, so that it is only sent to its end (R130, R150). -/
structure Tx where
  source : TxSource
  bytes : List Byte
  flushed : Bool
deriving DecidableEq, Repr

/-- What the part puts on a port's fibre: a whole frame or a flow mark (R130). -/
inductive WireItem
  | frame (bytes : List Byte)
  | mark (m : Mark)
deriving DecidableEq, Repr

/-- One port (R129, R130, R147, R149). `wire` is the model's own record of what the part has put on the fibre
since the last power-on or RESET_N, newest first (assumption log 7). -/
structure PortState where
  link : LinkState
  received : Mark
  tx : Option Tx
  marksWaiting : List Mark
  checkErrors : Nat
  wire : List WireItem
deriving DecidableEq, Repr

/-- The Link Interface's state (R129, R130, R134, R147–R149). `sentFwd` and `sentRet` are the marks last sent
about the Forward Queue (out of Port A) and about the Return Queue (out of Port B). -/
structure Lnk where
  a : PortState
  b : PortState
  sentFwd : Mark
  sentRet : Mark
  addr : BitVec 6
  margin : Margin
  sense : Sense
  fwdDrops : Nat
  retDrops : Nat
  urgentDrops : Nat
  endDiscards : Nat
deriving DecidableEq, Repr

/-- Treatment of a Forward Queue frame (R139): not yet examined or waiting, in the Step Engine's charge,
released for forwarding. -/
inductive HeadStatus | waiting | held | released
deriving DecidableEq, Repr

/-- A Forward Queue entry; `own` when its chain status has been stamped, so that its check byte is computed at
transmission (R133). -/
structure FwdEntry where
  frame : Frame
  status : HeadStatus
  own : Bool
deriving DecidableEq, Repr

/-- A Return Queue entry; `own` for a frame built by this part (R133). -/
structure RetEntry where
  frame : Frame
  own : Bool
deriving DecidableEq, Repr

/-- The Forward Queue, oldest first, and the urgent slot (R136). -/
structure Fwq where
  queue : List FwdEntry
  slot : Option Frame
deriving DecidableEq, Repr

/-- The mode as STATUS and ALERT show it (R108, 12.4). -/
inductive ShownMode | config | entry | run | safeDriving | safeHeld
deriving DecidableEq, Repr

/-- The frame waiting in the ALERT outbox: its tag and the three fields of its payload (R171, R172). -/
structure AlertFrame where
  tag : BitVec 16
  flags : BitVec 16
  raised : BitVec 16
  mode : ShownMode
deriving DecidableEq, Repr

/-- The Return Queue, oldest first, and the four outboxes; `responseHeld` while the RESPONSE outbox holds the
acknowledgement of a SOFT_RESET that waits for pulses to land (R136, R166). -/
structure Rtq where
  queue : List RetEntry
  alert : Option AlertFrame
  response : Option Frame
  responseHeld : Bool
  echo : Option Frame
  report : Option Frame
deriving DecidableEq, Repr

/-! ## Management Agent (chapter 8) -/

/-- A request in service: the tag and payload of its MGMT_REQ frame (R151, R152). -/
structure Request where
  tag : BitVec 16
  payload : List Byte
deriving DecidableEq, Repr

/-- The Management Agent's state (R151). -/
inductive Mga
  | idle
  | serving (req : Request)
  | answerWait (answer : Frame)
deriving DecidableEq, Repr

/-! ## Route Evaluator (chapters 1 and 2) -/

/-- An endpoint that a span walk reaches (R18, R20). -/
inductive Endpoint
  | terminal (t : Fin 32)
  | cross (s : Fin 8)
  | opened
deriving DecidableEq, Repr

/-- An open branch of a span walk: the node it stands on and the elements it has passed (R22). -/
structure Branch where
  node : Node
  passed : List Elem
deriving DecidableEq, Repr

/-- The walk set (R22): the source being walked, its endpoint count, the endpoints it has reached, and the open
branches, the one to be followed next first. -/
structure WalkSet where
  source : Fin 8
  count : Nat
  reached : List Endpoint
  branches : List Branch
deriving DecidableEq, Repr

/-- A span evaluation in progress for the Step Engine: the snapshot of possible sets, the instant of its start
or latest restart, and its walk set (R16, R22, R23). -/
structure Evaluation where
  sets : Vector (List Pos) 48
  since : Nat
  walk : WalkSet
deriving DecidableEq, Repr

/-- The outcome of a plain walk (R12). -/
inductive RouteOutcome
  | terminal (t : Fin 32)
  | opened
  | cross (s : Fin 8)
  | unknown
deriving DecidableEq, Repr

/-- How a loss value was obtained, or why there is none (R32). -/
inductive LossFlag | inGrid | belowGrid | aboveGrid | noFreq | noGrid | noRoute
deriving DecidableEq, Repr

/-- A route entry of a report (R60). The far end is part of the outcome. -/
structure RouteEntry where
  source : Fin 8
  outcome : RouteOutcome
  hops : Nat
  lossFlag : LossFlag
  loss : Int
  sat : Bool
deriving DecidableEq, Repr

/-- A route request in progress (R31): the instant it was made and its results, which are formed from the tables
and positions of that instant. -/
structure RouteRequest where
  since : Nat
  results : List RouteEntry
deriving DecidableEq, Repr

/-- The Route Evaluator's state (R22, R31). -/
structure Rev where
  evaluation : Option Evaluation
  route : Option RouteRequest
deriving DecidableEq, Repr

/-! ## Step Engine (chapter 3) -/

/-- The Step Engine's states (R46). -/
inductive EngineState | idle | checking | muting | actuating | settling | reportWait
deriving DecidableEq, Repr

/-- The outcomes of R45. NO_PATH is that of a take on an absent record; it ends no step and makes no report (R50). -/
inductive StepOutcome
  | settled | settledDegraded | noPath | rejectedInterlock | rejectedSpanLimit
  | preempted | failedHot | failedSupply | abandonedSafe
deriving DecidableEq, Repr

/-- The step identity recorded at a take (R46, R50). -/
structure StepIdent where
  tag : BitVec 16
  index : Byte
  quiet : Bool
  freq : Nat
  status : Byte
deriving DecidableEq, Repr

/-- Targets for some of the 48 elements: a set of entries with at most one per element. -/
abbrev Targets := Vector (Option Pos) 48

/-- The Step Engine's state (R46, R58, R62). `landed` counts the landings R55 waits for; `serial` numbers the
steps taken, so that a pulse can tell which step handed it in (R68). -/
structure Ste where
  st : EngineState
  ident : Option StepIdent
  snapshot : Option PathRec
  changing : Targets
  landed : Vector Bool 48
  takeAt : Nat
  grace : Option Nat
  dwell : Option Nat
  hot : Bool
  wearFlag : Bool
  outcome : Option StepOutcome
  elapsed : Nat
  report : Option Frame
  settledMark : Bool
  routes : Vector (Option RouteEntry) 8
  serial : Nat
deriving DecidableEq, Repr

/-! ## Coil Scheduler (chapter 4) -/

/-- The drive that pending entries and pulses belong to (R67). -/
inductive Drive
  | step (serial : Nat)
  | safe
  | recovery
deriving DecidableEq, Repr

/-- Phase of a pulse in flight (R68). -/
inductive Phase | driving | settleTime
deriving DecidableEq, Repr

/-- A pulse record (R68) together with the transit record of its element (R9), which exists exactly while the
pulse does: `origin` is the transit record's from, `target` its to. -/
structure Pulse where
  origin : Option Pos
  target : Pos
  drive : Drive
  current : Nat
  recovery : Nat
  launchAt : Nat
  endAt : Nat
  landAt : Nat
  phase : Phase
deriving DecidableEq, Repr

/-- State of a supply latch entry (R84). -/
inductive LatchState | owed | driving | landed
deriving DecidableEq, Repr

/-- A supply latch list entry (R84). -/
structure LatchEntry where
  elem : Elem
  target : Pos
  state : LatchState
deriving DecidableEq, Repr

/-- The Coil Scheduler's state (R9, R67, R68, R70, R72, R82, R84, R86, R90). A recorded position is `none` for
UNKNOWN. `lockoutOver` holds, for each element, the instant of the last reversal lockout whose expiry has been taken as an
event (R74; assumption log 36). `passDue` is the model's own: a launch pass is due within the event being taken (R73); it is
false between events. -/
structure Csd where
  recorded : Vector (Option Pos) 48
  pulses : Vector (Option Pulse) 48
  pending : Targets
  drive : Option Drive
  lastLaunch : Vector (Option Nat) 48
  lockoutOver : Vector (Option Nat) 48
  recoveryUntil : Vector (Option Nat) 6
  latch : List LatchEntry
  recoveryActive : Bool
  supply : Supply
  passDue : Bool
deriving DecidableEq, Repr

/-! ## Verify Unit (chapter 5) -/

/-- Kinds of verify (R100). `withdrawn` is a verify in progress whose request has been withdrawn: it completes
and counts, and serves nobody (R93, R103, R118). -/
inductive VerifyKind | command | recovery | debtForced | ordinary | pullIn | withdrawn
deriving DecidableEq, Repr

/-- The Verify Unit's activity (R92); `due` is the instant at which the verify timer expires. -/
inductive Activity
  | free
  | claimed (b : Bank) (kind : VerifyKind)
  | verifying (b : Bank) (kind : VerifyKind) (due : Nat)
deriving DecidableEq, Repr

/-- The command in the Verify Unit's hand, with its next bank (R104, R105). -/
inductive InHand
  | bank (b : Bank)
  | all (next : Bank)
  | entry (next : Bank)
deriving DecidableEq, Repr

/-- The Verify Unit's state (R92, R96, R97, R99, R103, R104). The round set has bit b for BKb. `slot` and
`idleLead` are the instants at which the running timers expire. -/
structure Vfu where
  activity : Activity
  debt : Int
  round : BitVec 6
  slot : Option Nat
  idleLead : Option Nat
  idleMark : Bool
  requests : List Bank
  inHand : Option InHand
deriving DecidableEq, Repr

/-! ## Mode Controller (chapter 6) -/

/-- SAFE sub-states (R108). -/
inductive SafeSub | driving | held
deriving DecidableEq, Repr

/-- ENTRY origins (R108). -/
inductive EntryOrigin | config | safe
deriving DecidableEq, Repr

/-- The command whose answer is owed in ENTRY (R108). -/
inductive EntryRequest | enterRun | resume
deriving DecidableEq, Repr

/-- The operating mode with the items present in it alone (R108). -/
inductive Mode
  | config
  | entry (origin : EntryOrigin) (request : EntryRequest)
  | run
  | safe (sub : SafeSub)
deriving DecidableEq, Repr

/-- The cause a trip request carries (R117, R174). -/
inductive TripCause
  | mismatch (b : Bank)
  | vcoilLow
  | door
  | safeAll
deriving DecidableEq, Repr

/-- The Mode Controller's state (R108), the instant at which a validation in progress began (R110), and the trip
requests that it has yet to take, oldest first (R117, R174). -/
structure Mdc where
  mode : Mode
  outstanding : Targets
  redrive : Bool
  validating : Option Nat
  trips : List TripCause
deriving DecidableEq, Repr

/-! ## Event Unit and Aux Line Unit (chapters 9 and 10) -/

/-- The kinds of reset after which the level conditions are read (R178). -/
inductive ResetKind | hard | soft
deriving DecidableEq, Repr

/-- The Event Unit's state (R168, R171, R177, R178). `readDue` stands from a reset to the first event after it,
in which the level conditions are read. -/
structure Evu where
  latched : BitVec 16
  sequence : BitVec 16
  hotCount : Nat
  readDue : Option ResetKind
deriving DecidableEq, Repr

/-- Functions of an auxiliary line (R179). -/
inductive LineFn | unused | muteOut | settledOut | alertOut | rfPresentIn | doorIn
deriving DecidableEq, Repr

/-- Polarity of an auxiliary line (R179). -/
inductive Polarity | activeHigh | activeLow
deriving DecidableEq, Repr

/-- An AUX record (R179). -/
structure AuxRec where
  fn : LineFn
  polarity : Polarity
deriving DecidableEq, Repr

/-- The Aux Line Unit's state (R179): its four records, and the level that the chamber puts on each line,
sampled where the part does not drive it. -/
structure Axu where
  records : Vector AuxRec 4
  levels : Vector Bool 4
deriving DecidableEq, Repr

/-! ## The whole part -/

/-- The state of the part. `pending` is the queue of commands that wait, first in, first out; `now` the instant
of the last event, µs; `inReset` whether RESET_N is asserted; `choices` numbers the free choices made. -/
structure State where
  pending : List Instr
  now : Nat
  inReset : Bool
  choices : Nat
  lnk : Lnk
  fwq : Fwq
  rtq : Rtq
  mga : Mga
  tbs : Tbs
  rev : Rev
  ste : Ste
  csd : Csd
  vfu : Vfu
  mdc : Mdc
  evu : Evu
  axu : Axu
deriving DecidableEq, Repr

/-- The part raises no fault: the manual names no condition in which it stops. The type has no constructor, so no
command can end in one (safe: nothing is cut short). -/
inductive Fault
deriving DecidableEq, Repr

/-- Refusals. -/
inductive Refusal
  /-- Raised by `exec` alone, for a command whose meaning is not written yet; no arm raises it (safe). -/
  | notModelled (mnemonic : String)
deriving DecidableEq, Repr

/-- The pins as State.reset has them: the addressed unit U1 of section 11.1 (address 5, margin 3, even sense), both
links up, the coil supply good, every line low. DESIGN CHOICE (assumption log 3). -/
def resetPins : Pins where
  addr := 5
  margin := .three
  sense := .even
  linkA := .up
  linkB := .up
  supply := .good
  levels := Vector.replicate 4 false

/-- A port after power-on or RESET_N, its link as its receiver reports it (R129, R147, R150). DESIGN CHOICE: no flow mark goes out at
that instant, on a link that is then UP either (R148, assumption log 50). -/
def PortState.initial (l : LinkState) : PortState where
  link := l
  received := .go
  tx := none
  marksWaiting := []
  checkErrors := 0
  wire := []

/-- The state after power-on or the release of RESET_N with the given pins: each block at the values its own reset
rule gives (R4, R5, R7, R9, R22, R24, R26, R28–R30, R40, R46, R62, R67, R68, R80, R90, R107, R108, R134, R150,
R151, R157, R158, R164, R178, R179, R185). -/
def State.initial (p : Pins) (now choices : Nat) (pending : List Instr) : State where
  pending := pending
  now := now
  inReset := false
  choices := choices
  lnk :=
    { a := PortState.initial p.linkA
      b := PortState.initial p.linkB
      sentFwd := .go
      sentRet := .go
      addr := p.addr
      margin := p.margin
      sense := p.sense
      fwdDrops := 0
      retDrops := 0
      urgentDrops := 0
      endDiscards := 0 }
  fwq := { queue := [], slot := none }
  rtq := { queue := [], alert := none, response := none, responseHeld := false, echo := none, report := none }
  mga := .idle
  tbs :=
    { classes := Vector.replicate 8 none
      elements := Vector.replicate 48 .absent
      links := Vector.replicate 160 none
      interlock := Vector.replicate 64 none
      core := { budget := 1000, safeIndex := none, slotInterval := 60 }
      eloss := Vector.replicate 48 (Vector.replicate 6 none)
      tcorr := Vector.replicate 32 none
      grid := none
      runtime := { idleLead := 5000, muteGrace := 100, alertMask := 0, tripMask := 0xFF }
      wear := Vector.replicate 48 0
      paths := Vector.replicate 256 none
      marker := 0 }
  rev := { evaluation := none, route := none }
  ste :=
    { st := .idle
      ident := none
      snapshot := none
      changing := Vector.replicate 48 none
      landed := Vector.replicate 48 false
      takeAt := 0
      grace := none
      dwell := none
      hot := false
      wearFlag := false
      outcome := none
      elapsed := 0
      report := none
      settledMark := false
      routes := Vector.replicate 8 none
      serial := 0 }
  csd :=
    { recorded := Vector.replicate 48 none
      pulses := Vector.replicate 48 none
      pending := Vector.replicate 48 none
      drive := none
      lastLaunch := Vector.replicate 48 none
      lockoutOver := Vector.replicate 48 none
      recoveryUntil := Vector.replicate 6 none
      latch := []
      recoveryActive := false
      supply := p.supply
      passDue := false }
  vfu :=
    { activity := .free
      debt := 0
      round := 0
      slot := none
      idleLead := none
      idleMark := false
      requests := []
      inHand := none }
  mdc :=
    { mode := .config
      outstanding := Vector.replicate 48 none
      redrive := false
      validating := none
      trips := [] }
  evu := { latched := 0x2000, sequence := 0, hotCount := 0, readDue := some .hard }
  axu := { records := Vector.replicate 4 { fn := .unused, polarity := .activeHigh }, levels := p.levels }

/-- The part right after reset, with no command waiting. -/
def State.reset : State := State.initial resetPins 0 0 []

end Sys2Proof.Machine
end

