-- ==== Sys2Proof/Machine/Ops.lean ====
section
/-! DEFINITION. Named readings of the state that several blocks share: banks and classes of elements, valid and
possible positions, the link's ports, the mode as shown, the auxiliary signals, and the choice counter. -/

namespace Sys2Proof.Machine

/-! ## Elements, banks, positions -/

/-- Every element, in ascending order. -/
def allElems : List Elem := List.finRange 48

/-- Every bank, in ascending order. -/
def allBanks : List Bank := List.finRange 6

/-- Every position number, in ascending order. -/
def allPos : List Pos := List.finRange 7

/-- Element En is in bank n div 8 (00_scope, "Naming of items"). -/
def bankOf (e : Elem) : Bank := ⟨e.val / 8, by omega⟩

/-- The eight elements of a bank, in ascending order. -/
def elemsOf (b : Bank) : List Elem := allElems.filter (fun e => bankOf e == b)

/-- The positions valid for a class, in ascending order (R3). -/
def ClassRec.validPositions (c : ClassRec) : List Pos :=
  match c.kind with
  | .latchTransfer => [1, 2]
  | .latchMulti => allPos.filter (fun p => p.val ≤ c.throws)
  | .solid => allPos.filter (fun p => p.val ≤ c.throws)

/-- The present class that an element's record names, if any. -/
def Tbs.classOf (t : Tbs) (e : Elem) : Option ClassRec :=
  match t.elements[e] with
  | .fitted c => t.classes[c]
  | .absent => none
  | .notFitted => none

/-- The positions valid for an element: those of its class; 0 alone when NOT_FITTED; none when its record or its
class is absent (R3). -/
def Tbs.validPositions (t : Tbs) (e : Elem) : List Pos :=
  match t.elements[e] with
  | .absent => []
  | .notFitted => [0]
  | .fitted c =>
    match t.classes[c] with
    | none => []
    | some r => r.validPositions

/-- An element is in transit while a pulse of it is in flight (R9, R68). -/
def Csd.inTransit (c : Csd) (e : Elem) : Bool := c.pulses[e].isSome

/-- Some pulse is in flight, driving or settling (R68, R89). -/
def Csd.anyInFlight (c : Csd) : Bool := allElems.any c.inTransit

/-- Where an element is going or standing: the in-flight destination in transit, else the recorded position
(R16, R51, R120). -/
def Csd.destination (c : Csd) (e : Elem) : Option Pos :=
  match c.pulses[e] with
  | some p => some p.target
  | none => c.recorded[e]

/-- The possible set of an element, in ascending order (R11). -/
def possible (t : Tbs) (c : Csd) (e : Elem) : List Pos :=
  match t.elements[e] with
  | .absent => []
  | .notFitted => [0]
  | .fitted k =>
    match t.classes[k] with
    | none => []
    | some r =>
      match c.pulses[e] with
      | some p =>
        match p.origin with
        | some o => allPos.filter (fun x => x == o || x == p.target)
        | none => r.validPositions
      | none =>
        match c.recorded[e] with
        | some p => [p]
        | none => r.validPositions

/-- A pulse draws its current and occupies its bank's driver while it is driving (R68). -/
def Csd.isDriving (c : Csd) (e : Elem) : Bool :=
  match c.pulses[e] with
  | some p => p.phase == .driving
  | none => false

/-- The current that one element's pulse draws now, mA (R68). -/
def Csd.drawn (c : Csd) (e : Elem) : Nat :=
  match c.pulses[e] with
  | some p => if p.phase = .driving then p.current else 0
  | none => 0

/-- The sum of the currents of the pulses now driving, mA (R72). -/
def Csd.charged (c : Csd) : Nat := (allElems.map c.drawn).sum

/-- A bank's driver is occupied (R72). -/
def Csd.bankDriving (c : Csd) (b : Bank) : Bool := (elemsOf b).any c.isDriving

/-- The bank's recovery-until instant is absent or reached (R72). -/
def Csd.recovered (c : Csd) (b : Bank) (now : Nat) : Bool :=
  match c.recoveryUntil[b] with
  | none => true
  | some t => t ≤ now

/-- "Bank idle": no element of the bank in transit, and its recovery-until instant absent or reached (R89). -/
def Csd.bankIdle (c : Csd) (b : Bank) (now : Nat) : Bool :=
  !(elemsOf b).any c.inTransit && c.recovered b now

/-- The coil drive of an element: the position toward which it is driven (R69, R70). -/
def State.coilDrive (s : State) (e : Elem) : Option Pos :=
  match s.csd.pulses[e] with
  | some p => if p.phase = .driving then some p.target else none
  | none => none

/-- A set of targets with no entry. -/
def Targets.none : Targets := Vector.replicate 48 Option.none

/-- A set of targets holds no entry. -/
def Targets.isEmpty (t : Targets) : Bool := allElems.all (fun e => t[e].isNone)

/-! ## Ports, straps, mode -/

/-- The state of a port. -/
def Lnk.port (l : Lnk) : Port → PortState
  | .a => l.a
  | .b => l.b

/-- Replaces the state of a port. -/
def State.setPort (s : State) (p : Port) (x : PortState) : State :=
  match p with
  | .a => { s with lnk := { s.lnk with a := x } }
  | .b => { s with lnk := { s.lnk with b := x } }

/-- The free entries of the hold margin (R134). -/
def marginEntries : Margin → Nat
  | .two => 2
  | .three => 3
  | .five => 5
  | .eight => 8

/-- A part strapped to address 0 or 63 is transparent (R134, R135). -/
def Lnk.transparent (l : Lnk) : Bool := l.addr == 0 || l.addr == 63

/-- The node address as a frame byte. -/
def Lnk.addrByte (l : Lnk) : Byte := l.addr.setWidth 8

/-- The mode as STATUS and ALERT frames show it (R108). -/
def Mode.shown : Mode → ShownMode
  | .config => .config
  | .entry _ _ => .entry
  | .run => .run
  | .safe .driving => .safeDriving
  | .safe .held => .safeHeld

/-- The mode is SAFE, in either sub-state. -/
def Mode.isSafe : Mode → Bool
  | .safe _ => true
  | _ => false

/-- The modes in which the slot timer runs and slot verifies are made (R97, R100). -/
def Mode.isRunOrSafe : Mode → Bool
  | .run => true
  | .safe _ => true
  | _ => false

/-- The Step Engine holds a step that has not ended. In REPORT_WAIT the step has ended (R57, R120; assumption
log 12). -/
def Ste.holdsStep (t : Ste) : Bool :=
  match t.st with
  | .idle => false
  | .reportWait => false
  | _ => true

/-! ## Auxiliary lines (chapter 10) -/

/-- MUTE_OUT is asserted (R181). -/
def State.muteOut (s : State) : Bool :=
  (s.ste.st == .muting || s.ste.st == .actuating || s.ste.st == .settling)
    || s.csd.recoveryActive || s.mdc.mode.isSafe || s.csd.anyInFlight

/-- SETTLED_OUT is asserted (R182). -/
def State.settledOut (s : State) : Bool :=
  s.mdc.mode == .run && s.ste.settledMark && (s.ste.st == .idle || s.ste.st == .reportWait)

/-- ALERT_OUT is asserted (R183). -/
def State.alertOut (s : State) : Bool := (s.evu.latched &&& ~~~s.tbs.runtime.alertMask) != 0

/-- The line level that means asserted or deasserted under a polarity; high is `true` (R179). -/
def Polarity.level : Polarity → Bool → Bool
  | .activeHigh, asserted => asserted
  | .activeLow, asserted => !asserted

/-- What the part drives on a line: the level, or nothing where the line is an input or high-impedance
(R179). -/
def State.lineDrive (s : State) (i : Fin 4) : Option Bool :=
  let r := s.axu.records[i]
  match r.fn with
  | .muteOut => some (r.polarity.level s.muteOut)
  | .settledOut => some (r.polarity.level s.settledOut)
  | .alertOut => some (r.polarity.level s.alertOut)
  | .unused => none
  | .rfPresentIn => none
  | .doorIn => none

/-- The level sampled at a line: what the part drives there, else what the chamber puts there (R179). -/
def State.lineLevel (s : State) (i : Fin 4) : Bool := (s.lineDrive i).getD s.axu.levels[i]

/-- An input signal as the Aux Line Unit presents it: asserted when the line that carries the function is at its
active level; deasserted when no line carries it (R179, R184). -/
def Axu.presented (x : Axu) (fn : LineFn) : Bool :=
  (List.finRange 4).any (fun i => x.records[i].fn == fn && x.levels[i] == x.records[i].polarity.level true)

/-- RF_PRESENT as the part uses it (R184). -/
def State.rfPresent (s : State) : Bool := s.axu.presented .rfPresentIn

/-- DOOR_IN as the part uses it (R184). -/
def State.doorIn (s : State) : Bool := s.axu.presented .doorIn

/-! ## Time and free choices -/

/-- The instant of an event that falls at `t`: time does not run backward (assumption log 2). -/
def State.advance (s : State) (t : Nat) : State := { s with now := max s.now t }

/-- Counts one free choice as made (assumption log 4). -/
def State.chose (s : State) : State := { s with choices := s.choices + 1 }

/-- One more on a 16-bit counter that stops at 65,535 (R149, R177). -/
def countUp (n : Nat) : Nat := min (n + 1) Config.counterCap

end Sys2Proof.Machine
end

