-- ==== Sys2Proof/Machine/Flags.lean ====
section
/-! DEFINITION. The Event Unit (chapter 9): event flags, alerts, trip requests, the hot-switch counter, and the
reading of the level conditions after a reset. -/

namespace Sys2Proof.Machine

/-- The sixteen event flags (R168). -/
inductive Flag
  | mismatch (b : Bank)
  | hot | wear | overflow | checkErr | verifyLate | safeEntered | stepFault | powerUp | vcoilLow | door
deriving DecidableEq, Repr

/-- The flag's bit in a flag set (section 12.4). -/
def Flag.bit : Flag → Nat
  | .mismatch b => b.val
  | .hot => 6
  | .wear => 7
  | .overflow => 8
  | .checkErr => 9
  | .verifyLate => 10
  | .safeEntered => 11
  | .stepFault => 12
  | .powerUp => 13
  | .vcoilLow => 14
  | .door => 15

/-- The flag's cause and bit in the trip mask, for the eight trip flags (R174, section 12.6). -/
def Flag.trip : Flag → Option (TripCause × Nat)
  | .mismatch b => some (.mismatch b, b.val)
  | .vcoilLow => some (.vcoilLow, 6)
  | .door => some (.door, 7)
  | _ => none

/-- The flag set that holds one flag. -/
def Flag.set (f : Flag) : BitVec 16 := BitVec.twoPow 16 f.bit

/-- The flag is in the latched set. -/
def State.isLatched (s : State) (f : Flag) : Bool := s.evu.latched.getLsbD f.bit

/-- The condition of a level flag is present (R170). Edge flags have none. -/
def State.conditionPresent (s : State) (f : Flag) : Bool :=
  match f with
  | .vcoilLow => s.csd.supply == .low
  | .door => s.doorIn
  | _ => false

/-- The flag set of the level flags whose condition is present (R170, R176). -/
def State.presentConditions (s : State) : BitVec 16 :=
  (if s.conditionPresent .vcoilLow then Flag.vcoilLow.set else 0)
    ||| (if s.conditionPresent .door then Flag.door.set else 0)

/-- Brings a waiting ALERT frame's flag set and mode up to date (R172). -/
def refreshAlert (s : State) : State :=
  { s with rtq.alert := s.rtq.alert.map (fun a => { a with flags := s.evu.latched, mode := s.mdc.mode.shown }) }

/-- A flag has become latched: it joins the raised set of a waiting ALERT frame, or builds a new frame where its
entry is unmasked and the part is an addressed node (R171, R172). -/
def raiseAlert (f : Flag) (s : State) : State :=
  match s.rtq.alert with
  | some a =>
    { s with rtq.alert := some { a with flags := s.evu.latched, raised := a.raised ||| f.set, mode := s.mdc.mode.shown } }
  | none =>
    if s.tbs.runtime.alertMask.getLsbD f.bit || s.lnk.transparent then s
    else
      { s with
        evu.sequence := s.evu.sequence + 1
        rtq.alert := some { tag := s.evu.sequence + 1, flags := s.evu.latched, raised := f.set, mode := s.mdc.mode.shown } }

/-- Latches a flag; an occurrence that finds it latched leaves the latched set as it is (R168, R169). -/
def latchFlag (f : Flag) (s : State) : State :=
  if s.isLatched f then s else raiseAlert f { s with evu.latched := s.evu.latched ||| f.set }

/-- Hands the Mode Controller a trip request, which it takes as an event of its own (R117, R174). -/
def requestTrip (c : TripCause) (s : State) : State := { s with mdc.trips := s.mdc.trips ++ [c] }

/-- Requests a trip where the flag is a trip flag whose trip-mask entry is enabled (R174). -/
def requestTripOf (f : Flag) (s : State) : State :=
  match f.trip with
  | some (c, i) => if s.tbs.runtime.tripMask.getLsbD i then requestTrip c s else s
  | none => s

/-- One occurrence of a flag's event: the flag is latched, the alert built or refreshed, and then the trip
requested (R169, R170, R171, R174). -/
def signal (f : Flag) (s : State) : State := requestTripOf f (latchFlag f s)

/-- A hot event (R81, R177): HOT is signalled, the hot-switch counter rises, and the step held gets its HOT flag. -/
def hotEvent (s : State) : State :=
  let s := signal .hot { s with evu.hotCount := countUp s.evu.hotCount }
  if s.ste.holdsStep then { s with ste.hot := true } else s

/-- A launch that brought a wear count to its limit (R79): WEAR is signalled and the step held gets its WEAR
flag. -/
def wearEvent (s : State) : State :=
  let s := signal .wear s
  if s.ste.holdsStep then { s with ste.wearFlag := true } else s

/-- READ_CLEAR_EVENTS clears the named flags, but for level flags whose condition is present (R176). -/
def clearFlags (mask : BitVec 16) (s : State) : State :=
  refreshAlert { s with evu.latched := s.evu.latched &&& ~~~(mask &&& ~~~s.presentConditions) }

/-- The beginning of a level condition that is found present after a reset (R178). -/
def signalIfPresent (f : Flag) (s : State) : State := if s.conditionPresent f then signal f s else s

/-- The Event Unit reads the level conditions in the first event after a reset; after power-on or RESET_N it also
takes POWER_UP as having become latched (R178). DESIGN CHOICE: VCOIL_LOW is read before DOOR, an order that R178 does not give
(assumption log 34). -/
def readLevelConditions (s : State) : State :=
  match s.evu.readDue with
  | none => s
  | some k =>
    let s := signalIfPresent .door (signalIfPresent .vcoilLow { s with evu.readDue := none })
    match k with
    | .hard => raiseAlert .powerUp s
    | .soft => s

/-- Changes the mode, and with it the mode of a waiting ALERT frame (R108, R172). -/
def setMode (m : Mode) (s : State) : State := refreshAlert { s with mdc.mode := m }

end Sys2Proof.Machine
end

