-- ==== Sys2Proof/Machine/Operands.lean ====
section
/-! DEFINITION. Frame and record layouts (chapter 12): byte order, the frame header and check byte, the payloads
the part builds, and each table record's bytes in both directions with the field checks of its LOAD. -/

namespace Sys2Proof.Machine

/-! ## Byte order and numbers (R186) -/

/-- The number that bytes spell, most significant first. -/
def beNat (bs : List Byte) : Nat := bs.foldl (fun n b => 256 * n + b.toNat) 0

/-- A number as `k` bytes, most significant first. -/
def beBytes : Nat → Nat → List Byte
  | 0, _ => []
  | k + 1, n => beBytes k (n / 256) ++ [BitVec.ofNat 8 n]

/-- The numeric field of `len` bytes at offset `off`. -/
def fieldAt (bs : List Byte) (off len : Nat) : Nat := beNat ((bs.drop off).take len)

/-- The byte at an offset; 0 past the end. -/
def byteAt (bs : List Byte) (off : Nat) : Byte := bs.getD off 0

/-- A two-byte field read as two's complement. -/
def toSigned16 (n : Nat) : Int := if n < 32768 then (n : Int) else (n : Int) - 65536

/-- A signed value as a two-byte two's complement field. -/
def signed16Bytes (v : Int) : List Byte := beBytes 2 (BitVec.ofInt 16 v).toNat

/-- A flag byte. -/
def flagByte (b : Bool) : Byte := if b then 1 else 0

/-- `n` zero bytes. -/
def zeros (n : Nat) : List Byte := List.replicate n 0

/-! ## Frames (sections 12.1 to 12.3) -/

def kindStep : Byte := 0x01
def kindEcho : Byte := 0x02
def kindRequest : Byte := 0x03
def kindResponse : Byte := 0x04
def kindReport : Byte := 0x05
def kindAlert : Byte := 0x06
def kindUrgent : Byte := 0x07

/-- The broadcast address (R131). -/
def broadcast : Byte := 63

/-- The exclusive OR of bytes. -/
def xorAll (bs : List Byte) : Byte := bs.foldl (· ^^^ ·) 0

/-- What the exclusive OR of a whole frame must be under a check sense (R132). -/
def senseTarget : Sense → Byte
  | .even => 0x00
  | .odd => 0xFF

/-- The bytes of a frame before its check byte. -/
def Frame.body (f : Frame) : List Byte :=
  [f.kind, f.dest, f.src] ++ beBytes 2 f.tag.toNat ++ [BitVec.ofNat 8 f.payload.length] ++ f.payload

/-- The check byte computed for a frame (R186). -/
def Frame.computedCheck (f : Frame) (sense : Sense) : Byte := xorAll f.body ^^^ senseTarget sense

/-- The bytes a frame is transmitted with: its check byte computed where the content is the part's own, and as
received otherwise (R133). -/
def Frame.wireBytes (f : Frame) (own : Bool) (sense : Sense) : List Byte :=
  f.body ++ [if own then f.computedCheck sense else f.check]

/-- The check of a received frame (R132): the exclusive OR under the strapped sense, and the length. -/
def frameCheckOk (sense : Sense) (bs : List Byte) : Bool :=
  xorAll bs == senseTarget sense && (7 ≤ bs.length && ((byteAt bs 5).toNat ≤ Config.maxPayload
    && bs.length == 7 + (byteAt bs 5).toNat))

/-- The frame that checked bytes spell (section 12.2). -/
def parseFrame (bs : List Byte) : Frame where
  kind := byteAt bs 0
  dest := byteAt bs 1
  src := byteAt bs 2
  tag := BitVec.ofNat 16 (fieldAt bs 3 2)
  payload := (bs.drop 6).take (byteAt bs 5).toNat
  check := byteAt bs (6 + (byteAt bs 5).toNat)

/-- A step frame: kind STEP, destination 63, and the length of the STEP payload (R44). -/
def Frame.isStep (f : Frame) : Bool := f.kind == kindStep && f.dest == broadcast && f.payload.length == 5

/-- The fields of a step frame (R44, section 12.3). -/
def Frame.stepIndex (f : Frame) : Byte := byteAt f.payload 0
def Frame.preempt (f : Frame) : Bool := (byteAt f.payload 1).getLsbD 0
def Frame.quiet (f : Frame) : Bool := (byteAt f.payload 1).getLsbD 1
def Frame.freq (f : Frame) : Nat := fieldAt f.payload 2 2
def Frame.status (f : Frame) : Byte := byteAt f.payload 4

/-- Stamping writes the greater of the incoming chain status and the severity (R59). -/
def Frame.stamp (f : Frame) (severity : Nat) : Frame :=
  { f with payload := f.payload.set 4 (BitVec.ofNat 8 (max f.status.toNat severity)) }

/-- An URGENT frame whose code is SAFE_ALL (R137, R187). -/
def Frame.isSafeAll (f : Frame) : Bool :=
  f.kind == kindUrgent && f.payload == [0x5A]

/-- A frame that the part builds: destination 0, this node's address as source (R131). The check byte is computed
at transmission (R133). -/
def ownFrame (l : Lnk) (kind : Byte) (tag : BitVec 16) (payload : List Byte) : Frame where
  kind := kind
  dest := 0
  src := l.addrByte
  tag := tag
  payload := payload
  check := 0

/-- The STEP_ECHO of a released step frame (R142). -/
def echoOf (l : Lnk) (f : Frame) : Frame := ownFrame l kindEcho f.tag [f.stepIndex, f.status]

/-- Codes of the shown modes (section 12.4). -/
def ShownMode.code : ShownMode → Byte
  | .config => 0
  | .entry => 1
  | .run => 2
  | .safeDriving => 3
  | .safeHeld => 4

/-- The ALERT frame of the waiting alert's content (R171, section 12.4). -/
def alertFrame (l : Lnk) (a : AlertFrame) : Frame :=
  ownFrame l kindAlert a.tag (beBytes 2 a.flags.toNat ++ beBytes 2 a.raised.toNat ++ [a.mode.code])

/-! ## Reports (R60, section 12.3) -/

/-- Codes of the outcomes. NO_PATH has none, since it makes no report (R45, R50). -/
def StepOutcome.code : StepOutcome → Option Byte
  | .settled => some 0
  | .settledDegraded => some 1
  | .noPath => none
  | .rejectedInterlock => some 2
  | .rejectedSpanLimit => some 3
  | .preempted => some 4
  | .failedHot => some 5
  | .failedSupply => some 6
  | .abandonedSafe => some 7

/-- Severity of each outcome (R45). -/
def StepOutcome.severity : StepOutcome → Nat
  | .settled => 0
  | .settledDegraded => 1
  | .noPath => 0
  | .rejectedInterlock => 3
  | .rejectedSpanLimit => 3
  | .preempted => 3
  | .failedHot => 4
  | .failedSupply => 4
  | .abandonedSafe => 4

/-- Code and far end of a route outcome. -/
def RouteOutcome.bytes : RouteOutcome → List Byte
  | .terminal t => [0, BitVec.ofNat 8 t.val]
  | .opened => [1, 0xFF]
  | .cross s => [2, BitVec.ofNat 8 s.val]
  | .unknown => [3, 0xFF]

/-- Codes of the loss flags. -/
def LossFlag.code : LossFlag → Byte
  | .inGrid => 0
  | .belowGrid => 1
  | .aboveGrid => 2
  | .noFreq => 3
  | .noGrid => 4
  | .noRoute => 5

/-- A route entry's eight bytes. -/
def RouteEntry.bytes (r : RouteEntry) : List Byte :=
  [BitVec.ofNat 8 r.source.val] ++ r.outcome.bytes ++ [BitVec.ofNat 8 r.hops, r.lossFlag.code, flagByte r.sat]
    ++ signed16Bytes r.loss

/-- The REPORT frame of a step (R60). DESIGN CHOICE: the flag byte's bits 2–7, which section 12.3 does not name, are sent as 0
(assumption log 35). -/
def reportFrame (l : Lnk) (tag : BitVec 16) (index : Byte) (o : StepOutcome) (hot wear : Bool) (elapsed : Nat)
    (entries : List RouteEntry) : Frame :=
  ownFrame l kindReport tag
    ([index] ++ o.code.toList ++ [BitVec.ofNat 8 o.severity, flagByte hot ||| (flagByte wear <<< 1)] ++ beBytes 4 elapsed
      ++ [BitVec.ofNat 8 entries.length] ++ (entries.map RouteEntry.bytes).flatten)

/-! ## Tables and reasons (sections 12.5, 12.6) -/

/-- The tables of section 8.2. -/
inductive TableId
  | cls | element | link | interlock | core | aux | eloss | tcorr | grid | runtime | wear | path
  | position | status | route
deriving DecidableEq, Repr

/-- The table that an identifier names. -/
def tableOf (b : Byte) : Option TableId :=
  match b.toNat with
  | 0x01 => some .cls
  | 0x02 => some .element
  | 0x03 => some .link
  | 0x04 => some .interlock
  | 0x05 => some .core
  | 0x06 => some .aux
  | 0x07 => some .eloss
  | 0x08 => some .tcorr
  | 0x09 => some .grid
  | 0x0A => some .runtime
  | 0x0B => some .wear
  | 0x0C => some .path
  | 0x0D => some .position
  | 0x0E => some .status
  | 0x0F => some .route
  | _ => none

/-- Record bytes of each table. -/
def TableId.recordBytes : TableId → Nat
  | .cls => 24
  | .element => 1
  | .link => 24
  | .interlock => 3
  | .core => 6
  | .aux => 2
  | .eloss => 17
  | .tcorr => 17
  | .grid => 17
  | .runtime => 7
  | .wear => 4
  | .path => 64
  | .position => 5
  | .status => 28
  | .route => 8

/-- The read-only tables (section 8.2). -/
def TableId.readOnly : TableId → Bool
  | .position => true
  | .status => true
  | .route => true
  | _ => false

/-- The tables that can be loaded in CONFIG only (section 8.2). -/
def TableId.configOnly : TableId → Bool
  | .cls => true
  | .element => true
  | .link => true
  | .interlock => true
  | .core => true
  | .aux => true
  | _ => false

/-- The record index lies in the table's range; an ELOSS index is element and position (R29, R186). -/
def TableId.inRange (t : TableId) (i : Nat) : Bool :=
  match t with
  | .cls => i < 8
  | .element => i < 48
  | .link => i < 160
  | .interlock => i < 64
  | .core => i == 0
  | .aux => i < 4
  | .eloss => i / 256 < 48 && (1 ≤ i % 256 && i % 256 ≤ 6)
  | .tcorr => i < 32
  | .grid => i == 0
  | .runtime => i == 0
  | .wear => i < 48
  | .path => i < 256
  | .position => i < 48
  | .status => i == 0
  | .route => i < 8

/-- NAK reasons with their details (R155, section 12.5). -/
inductive Nak
  | noTable | range | readOnly | mode
  | field (number sub : Nat)
  | badLength
  | validation (code index : Nat)
  | verifyFailed | state | already | limit
deriving DecidableEq, Repr

/-- Reason code and detail. -/
def Nak.bytes : Nak → List Byte
  | .noTable => [1]
  | .range => [2]
  | .readOnly => [3]
  | .mode => [4]
  | .field n s => [5, BitVec.ofNat 8 n, BitVec.ofNat 8 s]
  | .badLength => [6]
  | .validation c i => [7, BitVec.ofNat 8 c] ++ beBytes 2 i
  | .verifyFailed => [8]
  | .state => [9]
  | .already => [10]
  | .limit => [11]

/-! ## Records: from bytes, with field checks in layout order, and to bytes

A decoder answers the record, or the first faulty field with its sub-position (R153 check 4, R186). -/

/-- A faulty field. -/
structure FieldFault where
  number : Nat
  sub : Nat
deriving DecidableEq, Repr

/-- Fails with a field unless the condition holds. -/
def requireField (ok : Bool) (number : Nat) (sub : Nat := 0) : Except FieldFault Unit :=
  if ok then .ok () else .error { number := number, sub := sub }

/-- The first position 0, 1, … of a list whose element fails a test. -/
def firstBad {α : Type} (ok : α → Bool) (l : List α) : Option Nat := l.findIdx? (fun x => !ok x)

/-- A flag byte holds 0 or 1 (R186). -/
def flagOk (b : Byte) : Bool := b == 0 || b == 1

/-- CLASS kinds. -/
def classKindOf (b : Byte) : Option ClassKind :=
  match b.toNat with
  | 0 => some .latchMulti
  | 1 => some .latchTransfer
  | 2 => some .solid
  | _ => none

def ClassKind.code : ClassKind → Byte
  | .latchMulti => 0
  | .latchTransfer => 1
  | .solid => 2

/-- A CLASS record (R2, R4). -/
def decodeClass (r : List Byte) : Except FieldFault (Option ClassRec) := do
  requireField (flagOk (byteAt r 0)) 0
  if byteAt r 0 == 0 then return none
  match classKindOf (byteAt r 1) with
  | none => .error { number := 1, sub := 0 }
  | some kind =>
    let throws := fieldAt r 2 1
    requireField ((1 ≤ throws && throws ≤ 6) && (kind != .latchTransfer || throws == 2)) 2
    let width := fieldAt r 3 4
    requireField (width ≤ (if kind = .solid then 1000 else 100000)) 3
    let settle := fieldAt r 7 4
    requireField (settle ≤ 100000) 4
    let current := fieldAt r 11 2
    requireField (current ≤ (if kind = .solid then 0 else 1000)) 5
    let recovery := fieldAt r 13 2
    requireField (recovery ≤ 20000) 6
    let lockout := fieldAt r 15 4
    requireField (lockout ≤ 1000000) 7
    requireField (flagOk (byteAt r 19)) 8
    let wearLimit := fieldAt r 20 4
    requireField (wearLimit ≤ Config.wearCap) 9
    return some { kind, throws, width, settle, current, recovery, lockout, sense := byteAt r 19 == 1, wearLimit }

def encodeClass : Option ClassRec → List Byte
  | none => zeros 24
  | some c =>
    [1, c.kind.code] ++ beBytes 1 c.throws ++ beBytes 4 c.width ++ beBytes 4 c.settle ++ beBytes 2 c.current
      ++ beBytes 2 c.recovery ++ beBytes 4 c.lockout ++ [flagByte c.sense] ++ beBytes 4 c.wearLimit

/-- An ELEMENT record (R5). -/
def decodeElement (r : List Byte) : Except FieldFault ElemRec :=
  let v := byteAt r 0
  if h : v.toNat < 8 then .ok (.fitted ⟨v.toNat, h⟩)
  else if v = 0xFE then .ok .notFitted
  else .error { number := 0, sub := 0 }

def encodeElement : ElemRec → List Byte
  | .absent => [0xFF]
  | .fitted c => [BitVec.ofNat 8 c.val]
  | .notFitted => [0xFE]

/-- A node reference: kind, index, throw number (R1, R7). -/
def decodeNode (r : List Byte) (off : Nat) : Option Node :=
  let i := (byteAt r (off + 1)).toNat
  let k := (byteAt r (off + 2)).toNat
  match (byteAt r off).toNat with
  | 0 => if h : i < 8 then some (.source ⟨i, h⟩) else none
  | 1 => if h : i < 32 then some (.terminal ⟨i, h⟩) else none
  | 2 => if h : i < 48 then some (.common ⟨i, h⟩) else none
  | 3 => if h : i < 48 then (if hk : k < 7 then (if k = 0 then none else some (.throw ⟨i, h⟩ ⟨k, hk⟩)) else none) else none
  | _ => none

def encodeNode : Node → List Byte
  | .source s => [0, BitVec.ofNat 8 s.val, 0]
  | .terminal t => [1, BitVec.ofNat 8 t.val, 0]
  | .common e => [2, BitVec.ofNat 8 e.val, 0]
  | .throw e k => [3, BitVec.ofNat 8 e.val, BitVec.ofNat 8 k.val]

/-- The eight values of a loss row at an offset. -/
def rowAt (r : List Byte) (off : Nat) : LossRow :=
  Vector.ofFn (fun i : Fin 8 => toSigned16 (fieldAt r (off + 2 * i.val) 2))

/-- A loss row's values lie in −4,000 to +4,000 (R27). -/
def lossOk (v : Int) : Bool := -4000 ≤ v && v ≤ 4000

/-- A loss row slot at an offset: its row-present byte is field `number`, its values field `number + 1` (R27). -/
def decodeRow (r : List Byte) (off number : Nat) : Except FieldFault (Option LossRow) := do
  requireField (flagOk (byteAt r off)) number
  if byteAt r off == 0 then return none
  match firstBad lossOk (rowAt r (off + 1)).toList with
  | some i => .error { number := number + 1, sub := i }
  | none => return some (rowAt r (off + 1))

def encodeRow : Option LossRow → List Byte
  | none => zeros 17
  | some v => [1] ++ (v.toList.map signed16Bytes).flatten

/-- A LINK record (R7, R28). -/
def decodeLink (r : List Byte) : Except FieldFault (Option LinkRec) := do
  requireField (flagOk (byteAt r 0)) 0
  if byteAt r 0 == 0 then return none
  match decodeNode r 1 with
  | none => .error { number := 1, sub := 0 }
  | some a =>
    match decodeNode r 4 with
    | none => .error { number := 2, sub := 0 }
    | some b =>
      requireField (a != b) 2
      let row ← decodeRow r 7 3
      return some { a, b, row }

def encodeLink : Option LinkRec → List Byte
  | none => zeros 24
  | some l => [1] ++ encodeNode l.a ++ encodeNode l.b ++ encodeRow l.row

/-- An INTERLOCK entry (R24). -/
def decodeInterlock (r : List Byte) : Except FieldFault (Option (Fin 8 × Fin 32)) := do
  requireField (flagOk (byteAt r 0)) 0
  if byteAt r 0 == 0 then return none
  if hs : (byteAt r 1).toNat < 8 then
    if ht : (byteAt r 2).toNat < 32 then return some (⟨_, hs⟩, ⟨_, ht⟩)
    else .error { number := 2, sub := 0 }
  else .error { number := 1, sub := 0 }

def encodeInterlock : Option (Fin 8 × Fin 32) → List Byte
  | none => zeros 3
  | some (s, t) => [1, BitVec.ofNat 8 s.val, BitVec.ofNat 8 t.val]

/-- The CORE record (R157). -/
def decodeCore (r : List Byte) : Except FieldFault CoreRec := do
  let budget := fieldAt r 0 2
  requireField (100 ≤ budget && budget ≤ 4000) 0
  let safe := fieldAt r 2 2
  requireField (safe < 256 || safe == 0xFFFF) 1
  let slotInterval := fieldAt r 4 2
  requireField (1 ≤ slotInterval && slotInterval ≤ 3600) 2
  return { budget, safeIndex := if h : safe < 256 then some ⟨safe, h⟩ else none, slotInterval }

def encodeCore (c : CoreRec) : List Byte :=
  beBytes 2 c.budget ++ beBytes 2 (match c.safeIndex with | some n => n.val | none => 0xFFFF)
    ++ beBytes 2 c.slotInterval

def lineFnOf (b : Byte) : Option LineFn :=
  match b.toNat with
  | 0 => some .unused
  | 1 => some .muteOut
  | 2 => some .settledOut
  | 3 => some .alertOut
  | 4 => some .rfPresentIn
  | 5 => some .doorIn
  | _ => none

def LineFn.code : LineFn → Byte
  | .unused => 0
  | .muteOut => 1
  | .settledOut => 2
  | .alertOut => 3
  | .rfPresentIn => 4
  | .doorIn => 5

/-- An AUX record for one line, against the other lines' functions (R180). -/
def decodeAux (records : Vector AuxRec 4) (line : Fin 4) (r : List Byte) : Except FieldFault AuxRec :=
  match lineFnOf (byteAt r 0) with
  | none => .error { number := 0, sub := 0 }
  | some fn =>
    if fn ≠ .unused ∧ (List.finRange 4).any (fun j => j != line && records[j].fn == fn) then
      .error { number := 0, sub := 0 }
    else if byteAt r 1 = 0 then .ok { fn, polarity := .activeHigh }
    else if byteAt r 1 = 1 then .ok { fn, polarity := .activeLow }
    else .error { number := 1, sub := 0 }

def encodeAux (a : AuxRec) : List Byte := [a.fn.code, match a.polarity with | .activeHigh => 0 | .activeLow => 1]

/-- The eight frequencies of a GRID record. -/
def gridAt (r : List Byte) : Vector Nat 8 := Vector.ofFn (fun i : Fin 8 => fieldAt r (1 + 2 * i.val) 2)

/-- A frequency of a grid is sound at its position: not 0, and greater than the one before it (R26). -/
def gridOkAt (g : Vector Nat 8) (i : Fin 8) : Bool :=
  g[i] != 0 && (i == 0 || g[i.val - 1] < g[i])

/-- The GRID record (R26). -/
def decodeGrid (r : List Byte) : Except FieldFault (Option (Vector Nat 8)) := do
  requireField (flagOk (byteAt r 0)) 0
  if byteAt r 0 == 0 then return none
  match firstBad (gridOkAt (gridAt r)) (List.finRange 8) with
  | some i => .error { number := 1, sub := i }
  | none => return some (gridAt r)

def encodeGrid : Option (Vector Nat 8) → List Byte
  | none => zeros 17
  | some g => [1] ++ (g.toList.map (beBytes 2)).flatten

/-- The RUNTIME record (R158). Every mask pattern is accepted (R187). -/
def decodeRuntime (r : List Byte) : Except FieldFault RuntimeRec := do
  let idleLead := fieldAt r 0 2
  requireField (idleLead ≤ 60000) 0
  let muteGrace := fieldAt r 2 2
  requireField (muteGrace ≤ 500) 1
  return { idleLead, muteGrace, alertMask := BitVec.ofNat 16 (fieldAt r 4 2), tripMask := byteAt r 6 }

def encodeRuntime (c : RuntimeRec) : List Byte :=
  beBytes 2 c.idleLead ++ beBytes 2 c.muteGrace ++ beBytes 2 c.alertMask.toNat ++ [c.tripMask]

/-- A wear count (R80). -/
def decodeWear (r : List Byte) : Except FieldFault Nat := do
  requireField (fieldAt r 0 4 ≤ Config.wearCap) 0
  return fieldAt r 0 4

/-- A bank is in a bank mask (R40). -/
def PathRec.masks (p : PathRec) (b : Bank) : Bool := p.mask.getLsbD b.val

/-- A target of a LOADed PATH record is sound for its element: 0–6, 0 where NOT_FITTED, and valid for the class
where that is present (R42). -/
def targetLoadOk (t : Tbs) (e : Elem) (v : Nat) : Bool :=
  v ≤ 6 &&
    match t.elements[e] with
    | .absent => true
    | .notFitted => v == 0
    | .fitted c =>
      match t.classes[c] with
      | none => true
      | some k => k.validPositions.any (fun p => p.val == v)

/-- A report-list entry is sound at its position: 0–7 and no repeat of an earlier one (R42). -/
def reportEntryOk (l : List Byte) (i : Nat) : Bool :=
  (byteAt l i).toNat < 8 && !(l.take i).contains (byteAt l i)

/-- A PATH record against the tables (R42). -/
def decodePath (t : Tbs) (r : List Byte) : Except FieldFault (Option PathRec) := do
  requireField (flagOk (byteAt r 0)) 0
  if byteAt r 0 == 0 then return none
  let maskByte := byteAt r 1
  requireField (maskByte.toNat < 64) 1
  let masked : Elem → Bool := fun e => maskByte.getLsbD (bankOf e).val
  match firstBad (fun e : Elem => !masked e || targetLoadOk t e (byteAt r (2 + e.val)).toNat) allElems with
  | some i => .error { number := 2, sub := i }
  | none =>
    requireField (flagOk (byteAt r 50)) 3
    let dwell := fieldAt r 51 4
    requireField (dwell ≤ 1000000) 4
    let count := fieldAt r 55 1
    requireField (count ≤ 8) 5
    let list := (r.drop 56).take count
    match firstBad (reportEntryOk list) (List.range count) with
    | some i => .error { number := 6, sub := i }
    | none =>
      return some
        { mask := maskByte.setWidth 6
          targets := Vector.ofFn (fun e : Elem => if masked e then Fin.ofNat 7 (byteAt r (2 + e.val)).toNat else 0)
          hold := byteAt r 50 == 1
          dwell
          report := list.map (fun b => Fin.ofNat 8 b.toNat) }

def encodePath : Option PathRec → List Byte
  | none => zeros 64
  | some p =>
    [1, p.mask.setWidth 8] ++ p.targets.toList.map (fun v => BitVec.ofNat 8 v.val) ++ [flagByte p.hold]
      ++ beBytes 4 p.dwell ++ beBytes 1 p.report.length ++ p.report.map (fun s => BitVec.ofNat 8 s.val)
      ++ zeros (8 - p.report.length)

/-- A recorded position or a transit record's from field as a byte (section 12.6). -/
def positionByte : Option Pos → Byte
  | some p => BitVec.ofNat 8 p.val
  | none => 0xFF

/-- A set of positions as a byte, bit p for position p. -/
def positionSet (l : List Pos) : Byte := l.foldl (fun x p => x ||| BitVec.twoPow 8 p.val) 0

/-- The POSITION record of an element (R9, R159). DESIGN CHOICE: bit 7 of the possible set, which section 12.6 does not name, is sent
as 0 (assumption log 35). -/
def positionRecord (s : State) (e : Elem) : List Byte :=
  [positionByte s.csd.recorded[e]]
    ++ (match s.csd.pulses[e] with
        | some p => [1, positionByte p.origin, BitVec.ofNat 8 p.target.val]
        | none => [0, 0, 0])
    ++ [positionSet (possible s.tbs s.csd e)]

/-- Codes of the Step Engine's states (section 12.6). -/
def EngineState.code : EngineState → Byte
  | .idle => 0
  | .checking => 1
  | .muting => 2
  | .actuating => 3
  | .settling => 4
  | .reportWait => 5

/-- The line levels byte of STATUS (section 12.6). DESIGN CHOICE: its bit 7, which the section does not name, is sent as 0
(assumption log 35). -/
def lineLevelsByte (s : State) : Byte :=
  let bit (n : Nat) (b : Bool) : Byte := if b then BitVec.twoPow 8 n else 0
  bit 0 (s.lineLevel 0) ||| bit 1 (s.lineLevel 1) ||| bit 2 (s.lineLevel 2) ||| bit 3 (s.lineLevel 3)
    ||| bit 4 s.rfPresent ||| bit 5 s.doorIn ||| bit 6 (s.csd.supply == .low)

/-- The STATUS record (R159, section 12.6). DESIGN CHOICE: bits 6 and 7 of the round set, which the section does not name, are sent
as 0 (assumption log 35). -/
def statusRecord (s : State) : List Byte :=
  [s.mdc.mode.shown.code, s.ste.st.code, BitVec.ofInt 8 s.vfu.debt, s.vfu.round.setWidth 8]
    ++ beBytes 2 s.lnk.a.checkErrors ++ beBytes 2 s.lnk.b.checkErrors ++ beBytes 2 s.lnk.fwdDrops
    ++ beBytes 2 s.lnk.retDrops ++ beBytes 2 s.lnk.urgentDrops ++ beBytes 2 s.lnk.endDiscards
    ++ beBytes 2 s.evu.hotCount ++ beBytes 4 s.tbs.marker.toNat ++ beBytes 2 s.evu.latched.toNat
    ++ [lineLevelsByte s, s.lnk.addrByte, BitVec.ofNat 8 (marginEntries s.lnk.margin),
        match s.lnk.sense with | .even => 0 | .odd => 1]

/-- The ROUTE record at an index. The bytes of an empty record after its 0xFF are free values (assumption
log 5). -/
def routeRecord (s : State) (n : Fin 8) : List Byte :=
  match s.ste.routes[n] with
  | some r => r.bytes
  | none => 0xFF :: (List.range 7).map (fun i => Config.emptyRouteByte s.choices i)

end Sys2Proof.Machine
end

