-- ==== Sys2Proof/Machine/Topology.lean ====
section
/-! DEFINITION. The Route Evaluator's walks (chapter 1): links, plain walks and route traces, span walks and
verdicts, restarts of an evaluation. -/

namespace Sys2Proof.Machine

/-! ## Links (R7, R8) -/

/-- Every link number, in ascending order. -/
def allLinks : List (Fin 160) := List.finRange 160

/-- The node at the other end of a link, if the link names the node (R7). -/
def LinkRec.otherEnd (l : LinkRec) (n : Node) : Option Node :=
  if l.a = n then some l.b else if l.b = n then some l.a else none

/-- The link that a node carries and the node it leads to; none when the node is unlinked. A valid topology has at
most one (R8). -/
def Tbs.follow (t : Tbs) (n : Node) : Option (Fin 160 × Node) :=
  allLinks.findSome? (fun i => (t.links[i].bind (·.otherEnd n)).map (fun m => (i, m)))

/-! ## Plain walks (R12–R14) -/

/-- A route record (R14). The far end is part of the outcome. -/
structure RouteRec where
  source : Fin 8
  outcome : RouteOutcome
  links : List (Fin 160)
  elems : List (Elem × Pos)
deriving DecidableEq, Repr

/-- What a plain walk does at an element node: end, or pass the element at a position and stand on its other node
(R12, R13). -/
inductive PlainMove
  | stop (o : RouteOutcome)
  | pass (p : Pos) (onto : Node)
deriving DecidableEq, Repr

/-- The position a plain walk reads: UNKNOWN in transit (R13). -/
def Csd.walkPosition (c : Csd) (e : Elem) : Option Pos := if c.inTransit e then none else c.recorded[e]

/-- The element is outside the topology: its record is absent or NOT_FITTED (R5, R13). -/
def Tbs.outside (t : Tbs) (e : Elem) : Bool :=
  match t.elements[e] with
  | .fitted _ => false
  | .absent => true
  | .notFitted => true

/-- A plain walk at the common node of an element (R12 case 4). -/
def plainAtCommon (t : Tbs) (c : Csd) (e : Elem) : PlainMove :=
  if t.outside e then .stop .opened
  else
    match c.walkPosition e with
    | none => .stop .unknown
    | some p => if p = 0 then .stop .opened else .pass p (.throw e p)

/-- A plain walk at throw node `k` of an element (R12 case 5). -/
def plainAtThrow (t : Tbs) (c : Csd) (e : Elem) (k : Pos) : PlainMove :=
  if t.outside e then .stop .opened
  else
    match c.walkPosition e with
    | none => .stop .unknown
    | some p => if p = k then .pass p (.common e) else .stop .opened

/-- A plain walk that stands on a node whose link it is to follow, with the links and elements behind it in walk
order. A walk on a valid topology follows at most 49 links (R12), which is the fuel it is given. -/
def plainWalk (t : Tbs) (c : Csd) (start : Fin 8) :
    Nat → Node → List (Fin 160) → List (Elem × Pos) → RouteRec
  | 0, _, ls, es => { source := start, outcome := .opened, links := ls, elems := es }
  | fuel + 1, n, ls, es =>
    match t.follow n with
    | none => { source := start, outcome := .opened, links := ls, elems := es }
    | some (l, m) =>
      match m with
      | .terminal x => { source := start, outcome := .terminal x, links := ls ++ [l], elems := es }
      | .source x => { source := start, outcome := .cross x, links := ls ++ [l], elems := es }
      | .common e =>
        match plainAtCommon t c e with
        | .stop o => { source := start, outcome := o, links := ls ++ [l], elems := es }
        | .pass p onto => plainWalk t c start fuel onto (ls ++ [l]) (es ++ [(e, p)])
      | .throw e k =>
        match plainAtThrow t c e k with
        | .stop o => { source := start, outcome := o, links := ls ++ [l], elems := es }
        | .pass p onto => plainWalk t c start fuel onto (ls ++ [l]) (es ++ [(e, p)])

/-- A route trace: the plain walk from a source (R14). -/
def trace (t : Tbs) (c : Csd) (s : Fin 8) : RouteRec := plainWalk t c s 49 (.source s) [] []

/-! ## Span walks (R15–R22) -/

/-- What one branch of a span walk becomes: an endpoint reached, a discarded branch, or a branch that stands on
another node (R18, R19). -/
inductive SpanMove
  | reach (x : Endpoint)
  | discard
  | branch (b : Branch)
deriving DecidableEq, Repr

/-- A branch passes an element onto its other node, unless it has passed that element already (R19). -/
def passElement (b : Branch) (e : Elem) (onto : Node) : SpanMove :=
  if b.passed.contains e then .discard else .branch { node := onto, passed := e :: b.passed }

/-- A branch that reaches a common node splits, one branch for each position of the element's set in ascending
order; an empty set ends it OPEN (R18). -/
def spanAtCommon (sets : Vector (List Pos) 48) (b : Branch) (e : Elem) : List SpanMove :=
  if sets[e] = [] then [.reach .opened]
  else sets[e].map (fun p => if p = 0 then .reach .opened else passElement b e (.throw e p))

/-- A branch that reaches throw node `k` of an element (R18). -/
def spanAtThrow (sets : Vector (List Pos) 48) (b : Branch) (e : Elem) (k : Pos) : SpanMove :=
  if k ∈ sets[e] then passElement b e (.common e) else .reach .opened

/-- One move of a branch: it follows the link of the node it stands on (R18). -/
def spanMoves (t : Tbs) (sets : Vector (List Pos) 48) (b : Branch) : List SpanMove :=
  match t.follow b.node with
  | none => [.reach .opened]
  | some (_, m) =>
    match m with
    | .terminal x => [.reach (.terminal x)]
    | .source x => [.reach (.cross x)]
    | .common e => spanAtCommon sets b e
    | .throw e k => [spanAtThrow sets b e k]

/-- The endpoints among moves, each counted (R20). -/
def reachedBy (ms : List SpanMove) : List Endpoint :=
  ms.filterMap (fun m => match m with | .reach x => some x | _ => none)

/-- The branches among moves, in order. -/
def branchesOf (ms : List SpanMove) : List Branch :=
  ms.filterMap (fun m => match m with | .branch b => some b | _ => none)

/-- The walk set at the start of a source's walk: one branch, on the source node (R22). -/
def walkFrom (s : Fin 8) : WalkSet where
  source := s
  count := 0
  reached := []
  branches := [{ node := .source s, passed := [] }]

/-- One move of the walk set: its first branch moves, and the branches it becomes are followed first (R22). -/
def WalkSet.move (t : Tbs) (sets : Vector (List Pos) 48) (w : WalkSet) (b : Branch) (rest : List Branch) : WalkSet :=
  let ms := spanMoves t sets b
  { w with
    count := w.count + (reachedBy ms).length
    reached := (reachedBy ms).foldl (fun l x => if l.contains x then l else l ++ [x]) w.reached
    branches := branchesOf ms ++ rest }

/-- A terminal forbidden to a source by some interlock entry (R24, R25). -/
def Tbs.forbidden (t : Tbs) (s : Fin 8) (x : Fin 32) : Bool := t.interlock.toList.contains (some (s, x))

/-- An endpoint fails the span of a source (R21). -/
def Tbs.failsSpan (t : Tbs) (s : Fin 8) (x : Endpoint) : Bool :=
  match x with
  | .terminal n => t.forbidden s n
  | .cross _ => true
  | .opened => false

/-- Verdicts of a span evaluation (R15). -/
inductive Verdict
  | pass
  | interlock (s : Fin 8)
  | spanLimit (s : Fin 8)
deriving DecidableEq, Repr

/-- Runs an evaluation from a walk set to its verdict (R20, R21). The fuel of `Config.walkFuel` is never used up; an
evaluation that did use it up would not pass. -/
def runWalk (t : Tbs) (sets : Vector (List Pos) 48) : Nat → WalkSet → Verdict
  | 0, w => .spanLimit w.source
  | fuel + 1, w =>
    if Config.endpointLimit < w.count then .spanLimit w.source
    else
      match w.branches with
      | b :: rest => runWalk t sets fuel (w.move t sets b rest)
      | [] =>
        if w.reached.any (t.failsSpan w.source) then .interlock w.source
        else if h : w.source.val + 1 < 8 then runWalk t sets fuel (walkFrom ⟨w.source.val + 1, h⟩)
        else .pass

/-- The verdict of a span evaluation of possible sets (R15). -/
def spanVerdict (t : Tbs) (sets : Vector (List Pos) 48) : Verdict := runWalk t sets Config.walkFuel (walkFrom 0)

/-! ## The Step Engine's evaluation (R16, R22, R23) -/

/-- An element's possible set with a target added, in ascending order (R16). -/
def addTarget (l : List Pos) (q : Option Pos) : List Pos :=
  match q with
  | none => l
  | some q => allPos.filter (fun p => l.contains p || p == q)

/-- The possible sets of the position table with the targets of a changing set added (R16). -/
def snapshotSets (s : State) : Vector (List Pos) 48 :=
  Vector.ofFn (fun e : Elem => addTarget (possible s.tbs s.csd e) s.ste.changing[e])

/-- Starts an evaluation for the Step Engine, or starts it afresh (R16, R22, R23). -/
def startEvaluation (s : State) : State :=
  { s with rev.evaluation := some { sets := snapshotSets s, since := s.now, walk := walkFrom 0 } }

/-- Some element's possible set holds a position that its snapshot set lacks (R23). -/
def Evaluation.outdated (v : Evaluation) (s : State) : Bool :=
  allElems.any (fun e => (possible s.tbs s.csd e).any (fun p => !v.sets[e].contains p))

/-- Restarts the Step Engine's evaluation after a change of the position table, where R23 asks for it. -/
def restartEvaluation (s : State) : Option State :=
  match s.rev.evaluation with
  | none => none
  | some v => if v.outdated s then some (startEvaluation s) else none

end Sys2Proof.Machine
end

