-- ==== Sys2Proof/Machine/Loss.lean ====
section
/-! DEFINITION. Path loss arithmetic (chapter 2) and route requests (R31, R37). -/

namespace Sys2Proof.Machine

/-- A partial sum clamped to the range of R33. -/
def clampLoss (v : Int) : Int := max (-Config.lossClamp) (min Config.lossClamp v)

/-- A route sum at one grid point with the mark that some addition was clamped (R33). -/
structure RouteSum where
  value : Int
  sat : Bool
deriving DecidableEq, Repr

/-- One addition to a route sum (R33). -/
def RouteSum.add (r : RouteSum) (v : Int) : RouteSum where
  value := clampLoss (r.value + v)
  sat := r.sat || clampLoss (r.value + v) != r.value + v

/-- The value that a loss row slot contributes at a grid point: 0 when absent (R27). -/
def rowValue (r : Option LossRow) (i : Fin 8) : Int :=
  match r with
  | some v => v[i]
  | none => 0

/-- The loss row of a link (R28). -/
def Tbs.linkRow (t : Tbs) (l : Fin 160) : Option LossRow := t.links[l].bind (·.row)

/-- The loss row of an element at a throw position; position 0 has none (R29). -/
def Tbs.elementRow (t : Tbs) (e : Elem) (p : Pos) : Option LossRow :=
  if h : 0 < p.val then t.eloss[e][p.val - 1]'(by have := p.isLt; omega) else none

/-- The rows of the elements passed, each followed by the row of the link followed next (R33). -/
def hopRows (t : Tbs) : List (Elem × Pos) → List (Fin 160) → List (Option LossRow)
  | [], _ => []
  | (e, p) :: es, ls => t.elementRow e p :: (ls.take 1).map t.linkRow ++ hopRows t es (ls.drop 1)

/-- The rows that a route ending at terminal `x` adds, in walk order: the first link's, then those of the hops, and
last the terminal's correction (R33). -/
def routeRows (t : Tbs) (r : RouteRec) (x : Fin 32) : List (Option LossRow) :=
  (r.links.take 1).map t.linkRow ++ hopRows t r.elems (r.links.drop 1) ++ [t.tcorr[x]]

/-- The route sum at a grid point (R33). -/
def routeSum (t : Tbs) (r : RouteRec) (x : Fin 32) (i : Fin 8) : RouteSum :=
  (routeRows t r x).foldl (fun acc row => acc.add (rowValue row i)) { value := 0, sat := false }

/-- Whether any addition at any grid point was clamped (R33). -/
def routeSat (t : Tbs) (r : RouteRec) (x : Fin 32) : Bool :=
  (List.finRange 8).any (fun i => (routeSum t r x i).sat)

/-- The quotient of R35 step 4: rounded to the nearest integer, halves away from zero. -/
def roundedQuotient (num : Int) (den : Nat) : Int :=
  let whole := num.natAbs / den
  let q : Nat := if den ≤ 2 * (num.natAbs % den) then whole + 1 else whole
  if num < 0 then -(q : Int) else (q : Int)

/-- The loss value inside interval `i` (R35). -/
def interpolate (lo hi : Int) (flo fhi f : Nat) : Int :=
  lo + roundedQuotient ((hi - lo) * ((f : Int) - (flo : Int))) (fhi - flo)

/-- The interval of a frequency inside the grid: the highest `i` of 0–6 with F i ≤ f (R34). -/
def intervalOf (g : Vector Nat 8) (f : Nat) : Fin 7 :=
  ((List.finRange 7).filter (fun i => g[i.val]'(by omega) ≤ f)).getLastD 0

/-- A loss result (R32). -/
structure LossResult where
  flag : LossFlag
  value : Int
  sat : Bool
deriving DecidableEq, Repr

/-- The loss of a route at a frequency: R32 decides the flag, R34 places the frequency, R35 interpolates. -/
def lossResult (t : Tbs) (r : RouteRec) (freq : Nat) : LossResult :=
  match r.outcome with
  | .terminal x =>
    if freq = 0 then { flag := .noFreq, value := 0, sat := false }
    else
      match t.grid with
      | none => { flag := .noGrid, value := 0, sat := false }
      | some g =>
        let sat := routeSat t r x
        let sum (i : Fin 8) : Int := (routeSum t r x i).value
        if freq ≤ g[0] then { flag := .belowGrid, value := sum 0, sat := sat }
        else if g[7] ≤ freq then { flag := .aboveGrid, value := sum 7, sat := sat }
        else
          let i := intervalOf g freq
          { flag := .inGrid
            value := interpolate (sum i.castSucc) (sum i.succ) (g[i.val]'(by omega)) (g[i.val + 1]'(by omega)) freq
            sat := sat }
  | .opened => { flag := .noRoute, value := 0, sat := false }
  | .cross _ => { flag := .noRoute, value := 0, sat := false }
  | .unknown => { flag := .noRoute, value := 0, sat := false }

/-- The route entry of one source (R60): its route record and loss result. -/
def routeEntry (t : Tbs) (c : Csd) (freq : Nat) (s : Fin 8) : RouteEntry :=
  let r := trace t c s
  let x := lossResult t r freq
  { source := s, outcome := r.outcome, hops := r.elems.length, lossFlag := x.flag, loss := x.value, sat := x.sat }

/-- The results of a route request, in the order of the report list (R31). -/
def routeResults (s : State) (sources : List (Fin 8)) (freq : Nat) : List RouteEntry :=
  sources.map (routeEntry s.tbs s.csd freq)

end Sys2Proof.Machine
end

