-- ==== Sys2Proof/Machine/Link.lean ====
section
/-! DEFINITION. The Link Interface and the two queues (chapter 7): flow marks, admissions and departures, the chain
end, transmissions, reception, the admission pass and the SOFT_RESET flush. -/

namespace Sys2Proof.Machine

/-! ## Flow marks (R129, R130, R148) -/

/-- A mark goes out of a port: at once when its transmitter is idle, else at the end of the transmission in progress,
ahead of the next frame. A DOWN link carries nothing (R129, R130). -/
def PortState.sendMark (x : PortState) (m : Mark) : PortState :=
  match x.link with
  | .down => x
  | .up =>
    match x.tx with
    | none => { x with wire := .mark m :: x.wire }
    | some _ => { x with marksWaiting := x.marksWaiting ++ [m] }

/-- The mark a queue calls for: its free entries against the hold margin and the mark last sent (R148). -/
def nextMark (last : Mark) (free margin : Nat) : Mark :=
  match last with
  | .go => if free ≤ margin then .pause else .go
  | .pause => if 2 * margin ≤ free then .go else .pause

/-- Free entries of the Forward Queue (R136). -/
def State.fwdFree (s : State) : Nat := Config.fwdCapacity - s.fwq.queue.length

/-- Free entries of the Return Queue (R136). -/
def State.retFree (s : State) : Nat := Config.retCapacity - s.rtq.queue.length

/-- The comparison made at each admission to and departure from the Forward Queue; its mark goes out of Port A
(R148). -/
def compareFwd (s : State) : State :=
  let m := nextMark s.lnk.sentFwd s.fwdFree (marginEntries s.lnk.margin)
  if m = s.lnk.sentFwd then s else { s with lnk.sentFwd := m, lnk.a := s.lnk.a.sendMark m }

/-- The comparison made at each admission to and departure from the Return Queue; its mark goes out of Port B
(R148). -/
def compareRet (s : State) : State :=
  let m := nextMark s.lnk.sentRet s.retFree (marginEntries s.lnk.margin)
  if m = s.lnk.sentRet then s else { s with lnk.sentRet := m, lnk.b := s.lnk.b.sendMark m }

/-! ## Admissions and departures -/

/-- A frame joins the tail of the Forward Queue (R137). -/
def appendFwd (f : Frame) (s : State) : State :=
  compareFwd { s with fwq.queue := s.fwq.queue ++ [{ frame := f, status := .waiting, own := false }] }

/-- The Forward Queue head leaves (R130). -/
def departFwd (s : State) : State := compareFwd { s with fwq.queue := s.fwq.queue.tail }

/-- A frame joins the tail of the Return Queue (R144, R145). -/
def appendRet (f : Frame) (own : Bool) (s : State) : State :=
  compareRet { s with rtq.queue := s.rtq.queue ++ [{ frame := f, own := own }] }

/-- The Return Queue head leaves (R130, R146). -/
def departRet (s : State) : State := compareRet { s with rtq.queue := s.rtq.queue.tail }

/-- Replaces the Forward Queue head. -/
def setHead (x : FwdEntry) (s : State) : State := { s with fwq.queue := x :: s.fwq.queue.tail }

/-- One end discard is counted (R141, R143, R149). -/
def countEndDiscard (s : State) : State := { s with lnk.endDiscards := countUp s.lnk.endDiscards }

/-! ## The chain end (R141–R143) -/

/-- Deals with a released head while Port B's link is DOWN: a step frame of an addressed node becomes an echo when the
echo outbox is empty and waits otherwise; any other head is discarded and counted (R141, R142). -/
def dealAtChainEnd (s : State) : Option State :=
  match s.lnk.b.link, s.fwq.queue with
  | .down, x :: _ =>
    if x.status = .released then
      if x.frame.isStep && !s.lnk.transparent then
        if s.rtq.echo = none then some (departFwd { s with rtq.echo := some (echoOf s.lnk x.frame) }) else none
      else some (departFwd (countEndDiscard s))
    else none
  | _, _ => none

/-- Releases a head for forwarding; at the chain end it is dealt with at its release (R139, R141). -/
def releaseHead (x : FwdEntry) (s : State) : State :=
  let s := setHead { x with status := .released } s
  (dealAtChainEnd s).getD s

/-- The Step Engine stamps the frame in its charge and releases it, if it still holds one (R53, R58, R59). -/
def releaseHeld (severity : Nat) (s : State) : State :=
  match s.fwq.queue with
  | x :: _ =>
    if x.status = .held then releaseHead { x with frame := x.frame.stamp severity, own := true } s else s
  | [] => s

/-- At the chain end the urgent slot is emptied and its frame counted (R143). -/
def discardUrgent (s : State) : State :=
  match s.lnk.b.link, s.fwq.slot with
  | .down, some _ => countEndDiscard { s with fwq.slot := none }
  | _, _ => s

/-! ## Transmission (R130, R138, R146) -/

/-- A port's transmitter starts a frame. -/
def PortState.start (x : PortState) (source : TxSource) (bytes : List Byte) : PortState :=
  { x with tx := some { source := source, bytes := bytes, flushed := false } }

/-- The choice of Port B's transmitter at a frame boundary: the urgent slot, whatever the received mark; otherwise a
released head while the received mark is GO (R138). -/
def startTxB (s : State) : Option State :=
  if s.lnk.b.link = .up ∧ s.lnk.b.tx = none then
    match s.fwq.slot with
    | some f => some { s with lnk.b := s.lnk.b.start .urgentSlot (f.wireBytes false s.lnk.sense) }
    | none =>
      match s.fwq.queue with
      | x :: _ =>
        if x.status = .released ∧ s.lnk.b.received = .go then
          some { s with lnk.b := s.lnk.b.start .forwardHead (x.frame.wireBytes x.own s.lnk.sense) }
        else none
      | [] => none
  else none

/-- The choice of Port A's transmitter: the Return Queue head while the received mark is GO (R146). -/
def startTxA (s : State) : Option State :=
  if s.lnk.a.link = .up ∧ s.lnk.a.tx = none ∧ s.lnk.a.received = .go then
    match s.rtq.queue with
    | x :: _ => some { s with lnk.a := s.lnk.a.start .returnHead (x.frame.wireBytes x.own s.lnk.sense) }
    | [] => none
  else none

/-- The container of a transmitted or flushed frame gives it up (R130). -/
def vacate (source : TxSource) (s : State) : State :=
  match source with
  | .urgentSlot => { s with fwq.slot := none }
  | .forwardHead => departFwd s
  | .returnHead => departRet s

/-- The end of a transmission out of a port: the frame is on the fibre, then the marks that waited; the frame leaves
its container (R130). -/
def endTransmission (p : Port) (s : State) : State :=
  let x := s.lnk.port p
  match x.tx with
  | none => s
  | some t =>
    let wire := (x.marksWaiting.reverse.map WireItem.mark) ++ (WireItem.frame t.bytes :: x.wire)
    vacate t.source (s.setPort p { x with tx := none, marksWaiting := [], wire := wire })

/-! ## Links (R129, R147) -/

/-- The mark last sent for the queue that a port's partner feeds (R148). -/
def Lnk.sentOn (l : Lnk) : Port → Mark
  | .a => l.sentFwd
  | .b => l.sentRet

/-- A link-up event: the current flow mark goes out before any frame (R129, R148). -/
def bringUp (p : Port) (s : State) : State :=
  let x := s.lnk.port p
  match x.link with
  | .up => s
  | .down => s.setPort p (PortState.sendMark { x with link := .up } (s.lnk.sentOn p))

/-- A link-down event: the transmission in progress is cut and its frame stays where it was, unless a SOFT_RESET has
flushed it; the received mark becomes GO; at Port B the urgent slot is emptied (R129, R143, R147, R150). DESIGN CHOICE: an admission pass
follows the removal of such a flushed frame from the Return Queue, which R145 does not list (assumption log 47). -/
def takeDown (p : Port) (s : State) : State :=
  let x := s.lnk.port p
  match x.link with
  | .down => s
  | .up =>
    let s := s.setPort p { x with link := .down, received := .go, tx := none, marksWaiting := [] }
    let s :=
      match x.tx with
      | some t => if t.flushed then vacate t.source s else s
      | none => s
    match p with
    | .a => s
    | .b => discardUrgent s

/-- A flow mark is received; a DOWN link receives nothing (R129, R147). -/
def receiveMark (p : Port) (m : Mark) (s : State) : State :=
  let x := s.lnk.port p
  match x.link with
  | .down => s
  | .up => s.setPort p { x with received := m }

/-! ## Reception (R132, R137, R144) -/

/-- A frame that fails the check is counted on its port, and CHECK_ERR signalled (R132). -/
def countCheckError (p : Port) (s : State) : State :=
  let x := s.lnk.port p
  signal .checkErr (s.setPort p { x with checkErrors := countUp x.checkErrors })

/-- An URGENT frame acts at its arrival when its code is SAFE_ALL, it is addressed to this node or to 63, and the part
is not transparent (R137). -/
def actsOnUrgent (l : Lnk) (f : Frame) : Bool :=
  f.isSafeAll && (f.dest == l.addrByte || f.dest == broadcast) && !l.transparent

/-- An URGENT frame arrives on Port A: it takes the slot or is dropped and counted; SAFE_ALL requests a trip either way;
at the chain end the slot is emptied after that (R137, R143). -/
def receiveUrgent (f : Frame) (s : State) : State :=
  let s :=
    match s.fwq.slot with
    | none => { s with fwq.slot := some f }
    | some _ => signal .overflow { s with lnk.urgentDrops := countUp s.lnk.urgentDrops }
  discardUrgent (if actsOnUrgent s.lnk f then requestTrip .safeAll s else s)

/-- Any other frame arrives on Port A (R137). -/
def receiveFwd (f : Frame) (s : State) : State :=
  if s.fwq.queue.length < Config.fwdCapacity then appendFwd f s
  else signal .overflow { s with lnk.fwdDrops := countUp s.lnk.fwdDrops }

/-- A frame arrives on Port B: it is passed upstream unchanged or dropped and counted (R144). -/
def receiveRet (f : Frame) (s : State) : State :=
  if s.rtq.queue.length < Config.retCapacity then appendRet f false s
  else signal .overflow { s with lnk.retDrops := countUp s.lnk.retDrops }

/-- A frame that has passed the check is admitted under the rules of its port (R131, R137, R144). -/
def placeFrame (p : Port) (f : Frame) (s : State) : State :=
  match p with
  | .a => if f.kind = kindUrgent then receiveUrgent f s else receiveFwd f s
  | .b => receiveRet f s

/-- The complete reception of a frame (R129, R132). -/
def receiveFrame (p : Port) (bytes : List Byte) (s : State) : State :=
  match (s.lnk.port p).link with
  | .down => s
  | .up => if frameCheckOk s.lnk.sense bytes then placeFrame p (parseFrame bytes) s else countCheckError p s

/-! ## The admission pass (R145) -/

/-- Room for an outbox frame: the free entries exceed the hold margin (R145). -/
def State.outboxRoom (s : State) : Bool := marginEntries s.lnk.margin < s.retFree

/-- The ALERT outbox in the pass. -/
def passAlert (s : State) : State :=
  match s.rtq.alert with
  | some a => if s.outboxRoom then appendRet (alertFrame s.lnk a) true { s with rtq.alert := none } else s
  | none => s

/-- The RESPONSE outbox in the pass; a held acknowledgement is passed over (R166). -/
def passResponse (s : State) : State :=
  match s.rtq.response with
  | some f =>
    if s.outboxRoom && !s.rtq.responseHeld then appendRet f true { s with rtq.response := none } else s
  | none => s

/-- The ECHO outbox in the pass. -/
def passEcho (s : State) : State :=
  match s.rtq.echo with
  | some f => if s.outboxRoom then appendRet f true { s with rtq.echo := none } else s
  | none => s

/-- The REPORT outbox in the pass. -/
def passReport (s : State) : State :=
  match s.rtq.report with
  | some f => if s.outboxRoom then appendRet f true { s with rtq.report := none } else s
  | none => s

/-- Some outbox frame could be admitted now. -/
def State.outboxReady (s : State) : Bool :=
  s.outboxRoom && (s.rtq.alert.isSome || (s.rtq.response.isSome && !s.rtq.responseHeld) || s.rtq.echo.isSome
    || s.rtq.report.isSome)

/-- The admission pass, in the order ALERT, RESPONSE, ECHO, REPORT (R145). -/
def admissionPass (s : State) : Option State :=
  if s.outboxReady then some (passReport (passEcho (passResponse (passAlert s)))) else none

/-! ## SOFT_RESET (R150) -/

/-- Marks the transmission in progress of a port, if any, as flushed. -/
def PortState.flush (x : PortState) : PortState := { x with tx := x.tx.map (fun t => { t with flushed := true }) }

/-- A port is transmitting from a container. -/
def PortState.sending (x : PortState) (source : TxSource) : Bool :=
  match x.tx with
  | some t => t.source == source
  | none => false

/-- The flush of the queues, the slot and the outboxes. A frame whose transmission has begun stays until its end, and
then goes (R150, R130). -/
def flushChain (s : State) : State :=
  let s :=
    { s with
      lnk.a := s.lnk.a.flush
      lnk.b := s.lnk.b.flush
      fwq.queue := if s.lnk.b.sending .forwardHead then s.fwq.queue.take 1 else []
      fwq.slot := if s.lnk.b.sending .urgentSlot then s.fwq.slot else none
      rtq.queue := if s.lnk.a.sending .returnHead then s.rtq.queue.take 1 else []
      rtq.alert := none
      rtq.response := none
      rtq.responseHeld := false
      rtq.echo := none
      rtq.report := none }
  compareRet (compareFwd s)

end Sys2Proof.Machine
end

