-- ==== Sys2Proof/Machine/Coil.lean ====
section
/-! DEFINITION. The Coil Scheduler (chapter 4): hand-ins and cancellations, eligibility and the launch pass, the ends
and landings of pulses, supply loss, the supply latch list and the recovery drive. -/

namespace Sys2Proof.Machine

/-! ## The pending set (R67, R77) -/

/-- Removes every pending entry without launching it (R77). -/
def cancelPending (s : State) : State :=
  { s with csd.pending := Targets.none, csd.drive := none }

/-- Hands the entries of a drive in as the pending set; a launch pass follows (R67, R73). An element that has no
present class is not handed in (R67). -/
def handIn (d : Drive) (entries : Targets) (s : State) : State :=
  let entries : Targets := Vector.ofFn (fun e : Elem => if (s.tbs.classOf e).isSome then entries[e] else none)
  { s with
    csd.pending := entries
    csd.drive := if entries.isEmpty then none else some d
    csd.passDue := true }

/-! ## Launching (R69, R72, R73) -/

/-- No verify holds the bank: it is neither being verified nor claimed (R72). -/
def Activity.freeOf (a : Activity) (b : Bank) : Bool :=
  match a with
  | .free => true
  | .claimed x _ => x != b
  | .verifying x _ _ => x != b

/-- The reversal lockout condition of R72: no lockout stands, or at least K has elapsed since the last launch. At the very instant
at which K has elapsed the lockout is over once its expiry has been taken; a pass that comes before it at that instant still
finds the element locked out (R74; assumption log 36). -/
def lockoutPassed (s : State) (e : Elem) (c : ClassRec) : Bool :=
  match s.csd.lastLaunch[e] with
  | none => true
  | some t =>
    t + c.lockout < s.now || (t + c.lockout == s.now && (c.lockout == 0 || s.csd.lockoutOver[e] == some s.now))

/-- The eligibility conditions of R72 for an element of a class, at the present instant. -/
def eligible (s : State) (e : Elem) (c : ClassRec) : Bool :=
  (s.csd.charged + c.current ≤ s.tbs.core.budget)
    && !s.csd.bankDriving (bankOf e)
    && s.csd.recovered (bankOf e) s.now
    && lockoutPassed s e c
    && !s.csd.inTransit e
    && s.vfu.activity.freeOf (bankOf e)
    && s.csd.supply == .good

/-- The pulse record of a launch (R68, R69). -/
def newPulse (s : State) (d : Drive) (e : Elem) (c : ClassRec) (q : Pos) : Pulse where
  origin := s.csd.recorded[e]
  target := q
  drive := d
  current := c.current
  recovery := c.recovery
  launchAt := s.now
  endAt := s.now + c.width
  landAt := s.now + c.width + c.settle
  phase := .driving

/-- Raises an element's wear count by one launch; WEAR is signalled when that brings the count to the class's non-zero
limit (R79). -/
def countLaunch (e : Elem) (c : ClassRec) (s : State) : State :=
  let n := s.tbs.wear[e]
  let m := min (n + 1) Config.wearCap
  let s := { s with tbs.wear := s.tbs.wear.set e m }
  if m ≠ n ∧ m = c.wearLimit ∧ c.wearLimit ≠ 0 then wearEvent s else s

/-- The launch of a pending element toward its target, in one event (R69). DESIGN CHOICE: its WEAR is signalled before its HOT, an
order that R69 does not give (assumption log 43). -/
def launch (d : Drive) (e : Elem) (c : ClassRec) (q : Pos) (s : State) : State :=
  let s :=
    { s with
      csd.pending := s.csd.pending.set e none
      csd.pulses := s.csd.pulses.set e (some (newPulse s d e c q))
      csd.lastLaunch := s.csd.lastLaunch.set e (some s.now) }
  let s := countLaunch e c s
  if s.rfPresent then hotEvent s else s

/-- One element's turn in a launch pass (R73). -/
def considerLaunch (d : Drive) (s : State) (e : Elem) : State :=
  match s.csd.pending[e], s.tbs.classOf e with
  | some q, some c => if eligible s e c then launch d e c q s else s
  | _, _ => s

/-- The drive is recorded while the pending set holds entries (R67). -/
def settleDrive (s : State) : State :=
  if s.csd.pending.isEmpty then { s with csd.drive := none } else s

/-- A launch pass: the pending elements in ascending order, each tested with the state as it stands at its turn
(R73). -/
def launchPass (s : State) : State :=
  let s := { s with csd.passDue := false }
  match s.csd.drive with
  | none => s
  | some d => settleDrive (allElems.foldl (considerLaunch d) s)

/-! ## Ends and landings (R70, R71) -/

/-- The end of a driving pulse at its end instant: its current and bank driver are released, the bank recovers from
the end instant on, and a launch pass follows (R70). -/
def endPulse (e : Elem) (p : Pulse) (s : State) : State :=
  { s with
    csd.pulses := s.csd.pulses.set e (some { p with phase := .settleTime })
    csd.recoveryUntil := s.csd.recoveryUntil.set (bankOf e) (some (p.endAt + p.recovery))
    csd.passDue := true }

/-- The landing of a pulse: the recorded position becomes the target, the pulse and transit records go, and a launch
pass follows (R71). DESIGN CHOICE: a recovery pulse records its target even where a class loaded meanwhile has no such position
(R9; assumption log 37). -/
def landPulse (e : Elem) (p : Pulse) (s : State) : State :=
  { s with
    csd.recorded := s.csd.recorded.set e (some p.target)
    csd.pulses := s.csd.pulses.set e none
    csd.passDue := true }

/-! ## The supply latch list and the recovery drive (R84–R88) -/

/-- Inserts a bank into an ascending list of distinct banks (R103). -/
def insertBank (b : Bank) (l : List Bank) : List Bank := allBanks.filter (fun x => x == b || l.contains x)

/-- The banks that hold LANDED entries, in ascending order (R87). -/
def landedBanks (l : List LatchEntry) : List Bank :=
  allBanks.filter (fun b => l.any (fun x => x.state == .landed && bankOf x.elem == b))

/-- The recovery drive is complete when no entry remains DRIVING: the active mark is cleared and the forced verifies are
requested (R86, R87). -/
def completeRecovery (s : State) : State :=
  if s.csd.latch.any (fun x => x.state == .driving) then s
  else
    { s with
      csd.recoveryActive := false
      vfu.requests := (landedBanks s.csd.latch).foldl (fun l b => insertBank b l) s.vfu.requests }

/-- The landing of a recovery pulse, reported to the recovery drive where that is still active (R71, R86). -/
def landRecovery (e : Elem) (s : State) : State :=
  if s.csd.recoveryActive then
    completeRecovery
      { s with
        csd.latch := s.csd.latch.map (fun x =>
          if x.elem = e ∧ x.state = .driving then { x with state := .landed } else x) }
  else s

/-- Entries of the latch list that are owed, as a set of targets (R86). -/
def owedTargets (l : List LatchEntry) : Targets :=
  Vector.ofFn (fun e : Elem => (l.find? (fun x => x.elem == e && x.state == .owed)).map (·.target))

/-- Forms the recovery drive from the OWED entries, if there are any (R85, R86). DESIGN CHOICE: an OWED entry whose element has
been loaded NOT_FITTED, absent or of an absent class meanwhile becomes DRIVING like the others (R86) and is not handed in (R67),
so the drive stays active until another rule clears the list (assumption log 32). An owed target that is not valid for the class
loaded meanwhile is driven as it stands (R9, R86; assumption log 37). -/
def formRecovery (s : State) : State :=
  if s.csd.latch.any (fun x => x.state == .owed) then
    handIn .recovery (owedTargets s.csd.latch)
      { s with
        csd.recoveryActive := true
        csd.latch := s.csd.latch.map (fun x => if x.state = .owed then { x with state := .driving } else x) }
  else s

/-- Puts a cut element on the latch list, or returns its entry there to OWED with the cut pulse's target (R84). -/
def latchCut (e : Elem) (q : Pos) (l : List LatchEntry) : List LatchEntry :=
  if l.any (fun x => x.elem == e) then
    l.map (fun x => if x.elem = e then { x with target := q, state := .owed } else x)
  else l ++ [{ elem := e, target := q, state := .owed }]

/-- Cuts the pulse of one element, if it has one in flight (R83 steps 1 and 2). -/
def cutPulse (s : State) (e : Elem) : State :=
  match s.csd.pulses[e] with
  | none => s
  | some p =>
    { s with
      csd.pulses := s.csd.pulses.set e none
      csd.recorded := s.csd.recorded.set e none
      csd.recoveryUntil :=
        if p.phase = .driving then s.csd.recoveryUntil.set (bankOf e) (some (s.now + p.recovery))
        else s.csd.recoveryUntil
      csd.latch := latchCut e p.target s.csd.latch }

/-- The pending entries of the recovery drive return to OWED when they are cancelled by a supply loss (R88). -/
def returnToOwed (l : List LatchEntry) : List LatchEntry :=
  l.map (fun x => if x.state = .driving then { x with state := .owed } else x)

/-- The Coil Scheduler's part of the beginning of VCOIL_LOW (R83, R88): every pulse in flight is cut, every pending entry
cancelled, and an active recovery drive ended. -/
def cutSupply (s : State) : State :=
  let s := allElems.foldl cutPulse { s with csd.supply := .low }
  cancelPending { s with csd.recoveryActive := false, csd.latch := returnToOwed s.csd.latch }

/-- Discards the latch list and ends an active recovery drive (R85, R88). -/
def discardLatch (s : State) : State := { s with csd.latch := [], csd.recoveryActive := false }

/-- The LANDED entries of a bank leave the list at the forced verify requested for them (R87). -/
def removeLanded (b : Bank) (s : State) : State :=
  { s with csd.latch := s.csd.latch.filter (fun x => !(x.state == .landed && bankOf x.elem == b)) }

end Sys2Proof.Machine
end

