-- ==== Sys2Proof/Machine/Verify.lean ====
section
/-! DEFINITION. The Verify Unit (chapter 5): its timers, the choice and start of verifies, withdrawals, and what a
completed verify does to the position table, the debt and the round. -/

namespace Sys2Proof.Machine

/-! ## Timers (R97, R99) -/

/-- Starts the slot timer with the slot interval of CORE (R97). -/
def startSlot (s : State) : State :=
  { s with vfu.slot := some (s.now + s.tbs.core.slotInterval * 1000000) }

/-- Starts the idle-lead timer with the idle lead of RUNTIME, the mark cleared; a lead of 0 expires at once (R99;
assumption log 8). -/
def startIdleLead (s : State) : State :=
  if s.tbs.runtime.idleLead = 0 then { s with vfu.idleLead := none, vfu.idleMark := true }
  else { s with vfu.idleLead := some (s.now + s.tbs.runtime.idleLead * 1000), vfu.idleMark := false }

/-- Stops the idle-lead timer and clears the mark (R99). -/
def stopIdleLead (s : State) : State := { s with vfu.idleLead := none, vfu.idleMark := false }

/-- Stops both timers and clears the mark (R97, R99, R106). -/
def stopVerifyTimers (s : State) : State := stopIdleLead { s with vfu.slot := none }

/-! ## Debt and round (R96, R98) -/

/-- The debt after a slot expiry that finds it below 5 (R98). -/
def debtUp (d : Int) : Int := min (d + 1) 5

/-- The debt after a completed verify (R98). -/
def debtDown (d : Int) : Int := max (d - 1) (-3)

/-- The round set with a bank added; a full set begins a new round (R96). -/
def addToRound (r : BitVec 6) (b : Bank) : BitVec 6 :=
  let x := r ||| BitVec.twoPow 6 b.val
  if x = BitVec.allOnes 6 then 0 else x

/-- A bank is in the round set (R96). -/
def Vfu.inRound (v : Vfu) (b : Bank) : Bool := v.round.getLsbD b.val

/-! ## The choice (R100–R103) -/

/-- The next bank of the command in hand (R100, R104, R105). -/
def InHand.nextBank : InHand → Bank
  | .bank b => b
  | .all b => b
  | .entry b => b

/-- The lowest-numbered idle bank not in the round set (R101). -/
def lowestIdle (s : State) : Option Bank :=
  allBanks.find? (fun b => !s.vfu.inRound b && s.csd.bankIdle b s.now)

/-- The lowest-numbered bank not in the round set (R102). -/
def lowestOpen (v : Vfu) : Option Bank := allBanks.find? (fun b => !v.inRound b)

/-- The condition of an ordinary verify on the debt and the Step Engine (R100, R101). -/
def ordinaryAllowed (s : State) : Bool :=
  1 ≤ s.vfu.debt && s.ste.st != .muting && s.ste.st != .actuating

/-- The condition of a pull-in verify (R100). -/
def pullInAllowed (s : State) : Bool := -3 < s.vfu.debt && s.vfu.debt ≤ 0 && s.vfu.idleMark

/-- The first line of R100's table whose condition holds, with its bank. -/
def verifyChoice (s : State) : Option (VerifyKind × Bank) :=
  match s.vfu.inHand with
  | some h => some (.command, h.nextBank)
  | none =>
    match s.vfu.requests with
    | b :: _ => some (.recovery, b)
    | [] =>
      if !s.mdc.mode.isRunOrSafe then none
      else if s.vfu.debt = 5 then (lowestOpen s.vfu).map (fun b => (.debtForced, b))
      else if ordinaryAllowed s then (lowestIdle s).map (fun b => (.ordinary, b))
      else if pullInAllowed s then (lowestIdle s).map (fun b => (.pullIn, b))
      else none

/-- Starts a verify (R92). -/
def startVerify (k : VerifyKind) (b : Bank) (s : State) : State :=
  { s with vfu.activity := .verifying b k (s.now + Config.verifyTime) }

/-- Takes a bank for a verify: the verify starts when the bank is idle; otherwise the bank is claimed (R92, R100). -/
def takeBank (k : VerifyKind) (b : Bank) (s : State) : State :=
  if s.csd.bankIdle b s.now then startVerify k b s else { s with vfu.activity := .claimed b k }

/-- What the Verify Unit does now: a FREE unit chooses; a claimed bank that is idle is verified (R92, R100). -/
def verifyAction (s : State) : Option State :=
  match s.vfu.activity with
  | .free => (verifyChoice s).map (fun x => takeBank x.1 x.2 s)
  | .claimed b k => if s.csd.bankIdle b s.now then some (startVerify k b s) else none
  | .verifying _ _ _ => none

/-! ## Withdrawals (R102, R103, R105, R118) -/

/-- Releases a claim of a kind that has not started; a launch pass follows (R73, R102, R103, R118). -/
def releaseClaim (k : VerifyKind) (s : State) : State :=
  match s.vfu.activity with
  | .claimed _ x => if x = k then { s with vfu.activity := .free, csd.passDue := true } else s
  | _ => s

/-- A verify in progress of a kind whose request is withdrawn completes and serves nobody (R93, R103). -/
def orphanVerify (k : VerifyKind) (s : State) : State :=
  match s.vfu.activity with
  | .verifying b x due => if x = k then { s with vfu.activity := .verifying b .withdrawn due } else s
  | _ => s

/-- Withdraws the forced verifies that the recovery asked for (R88, R103). -/
def withdrawRecovery (s : State) : State :=
  orphanVerify .recovery (releaseClaim .recovery { s with vfu.requests := [] })

/-- Withdraws a debt-forced claim not yet started (R102, R106). -/
def withdrawDebtForced (s : State) : State := releaseClaim .debtForced s

/-- Withdraws the ENTRY sequence from the unit's hand (R105, R118). -/
def withdrawSequence (s : State) : State :=
  match s.vfu.inHand with
  | some (.entry _) => orphanVerify .command (releaseClaim .command { s with vfu.inHand := none })
  | _ => s

/-! ## Completion (R91, R94) -/

/-- The contacts that are closed, of those the element has: one for each position valid for its class (R91). -/
def closedPositions (c : ClassRec) (contacts : BitVec 7) : List Pos :=
  c.validPositions.filter (fun p => contacts.getLsbD p.val)

/-- The sensed position: the one closed contact; none when indeterminate (R91). -/
def sensedPosition (c : ClassRec) (contacts : BitVec 7) : Option Pos :=
  match closedPositions c contacts with
  | [q] => some q
  | _ => none

/-- The class of an element that a verify reads: present, with sense present (R91). -/
def Tbs.readClass (t : Tbs) (e : Elem) : Option ClassRec :=
  match t.classOf e with
  | some c => if c.sense then some c else none
  | none => none

/-- The contacts of an element among those read of its bank. -/
def contactsOf (contacts : List (BitVec 7)) (e : Elem) : BitVec 7 := contacts.getD (e.val % 8) 0

/-- What the contacts show of an element: nothing when it is not read, else the sensed position or indeterminate
(R91). -/
def sensed (t : Tbs) (contacts : List (BitVec 7)) (e : Elem) : Option (Option Pos) :=
  (t.readClass e).map (fun c => sensedPosition c (contactsOf contacts e))

/-- The recorded positions after a verify of a bank (R94). -/
def verifiedPositions (s : State) (b : Bank) (contacts : List (BitVec 7)) : Vector (Option Pos) 48 :=
  Vector.ofFn (fun e : Elem =>
    if bankOf e = b then (sensed s.tbs contacts e).getD s.csd.recorded[e] else s.csd.recorded[e])

/-- An element mismatched: indeterminate, or sensed away from its recorded position (R94). -/
def elementMismatched (s : State) (contacts : List (BitVec 7)) (e : Elem) : Bool :=
  match sensed s.tbs contacts e with
  | none => false
  | some none => true
  | some (some q) =>
    match s.csd.recorded[e] with
    | none => false
    | some p => p != q

/-- Some element of the bank mismatched (R95). -/
def bankMismatched (s : State) (b : Bank) (contacts : List (BitVec 7)) : Bool :=
  (elemsOf b).any (elementMismatched s contacts)

/-- The position table, debt, round and activity after a completed verify, and the launch pass that is due (R94, R96,
R98). The pass is made after the rest of the event's effect (assumption log 49). -/
def completeReading (b : Bank) (contacts : List (BitVec 7)) (s : State) : State :=
  { s with
    csd.recorded := verifiedPositions s b contacts
    csd.passDue := true
    vfu.activity := .free
    vfu.debt := debtDown s.vfu.debt
    vfu.round := addToRound s.vfu.round b }

/-- The completion of a forced verify requested for the recovery (R87, R103). -/
def completeRequested (b : Bank) (s : State) : State :=
  removeLanded b { s with vfu.requests := s.vfu.requests.filter (· != b) }

/-- The end of VERIFY_ALL or of the ENTRY sequence: D is 0, a new round begins, the command leaves the hand (R105). -/
def endSequence (s : State) : State := { s with vfu.debt := 0, vfu.round := 0, vfu.inHand := none }

/-- The bank after this one in a sequence; none after BK5 (R105). -/
def bankAfter (b : Bank) : Option Bank := if h : b.val + 1 < 6 then some ⟨b.val + 1, h⟩ else none

end Sys2Proof.Machine
end

