-- ==== Sys2Proof/Machine/Engine.lean ====
section
/-! DEFINITION. The Step Engine (chapter 3): reports, the end of a step, the take, the passage from verdict to settled
routing, abandonment and soft reset. -/

namespace Sys2Proof.Machine

/-! ## Reports and IDLE (R58, R60–R62) -/

/-- The engine enters IDLE; in RUN and SAFE the idle-lead timer starts (R58, R61, R99). -/
def enterIdle (s : State) : State :=
  let s :=
    { s with
      ste.st := .idle
      ste.ident := none
      ste.snapshot := none
      ste.changing := Targets.none
      ste.landed := Vector.replicate 48 false }
  if s.mdc.mode.isRunOrSafe then startIdleLead s else s

/-- Places the pending report in the empty report outbox, and the engine becomes IDLE (R61). -/
def offerReport (s : State) : Option State :=
  match s.ste.st, s.ste.report, s.rtq.report with
  | .reportWait, some f, none => some (enterIdle { s with rtq.report := some f, ste.report := none })
  | _, _, _ => none

/-- The ROUTE table that a report's entries make (R62). -/
def routeTable (entries : List RouteEntry) : Vector (Option RouteEntry) 8 :=
  Vector.ofFn (fun i : Fin 8 => entries[i.val]?)

/-- Builds the report of the step that has ended, replaces the ROUTE table, and offers the report to the outbox (R60–R62). NO_PATH
makes no report (R50). -/
def buildReport (entries : List RouteEntry) (s : State) : State :=
  match s.ste.ident, s.ste.outcome with
  | some _, some .noPath => s
  | some i, some o =>
    let f := reportFrame s.lnk i.tag i.index o s.ste.hot s.ste.wearFlag s.ste.elapsed entries
    let s := { s with ste.report := some f, ste.routes := routeTable entries }
    (offerReport s).getD s
  | _, _ => s

/-- The route request of a settled step: its results are those of the tables and positions of this instant; an empty
report list completes at once (R31, R37, R61). DESIGN CHOICE: it is made before a LOAD is served that has become the head in the same event, by
the release of the step's frame at the chain end; R37 allows either order (assumption log 51). -/
def requestRoutes (s : State) : State :=
  match s.ste.snapshot, s.ste.ident with
  | some p, some i =>
    if p.report = [] then buildReport [] s
    else { s with rev.route := some { since := s.now, results := routeResults s p.report i.freq } }
  | _, _ => s

/-! ## The end of a step (R58) -/

/-- An outcome of a settled step. -/
def StepOutcome.isSettled : StepOutcome → Bool
  | .settled => true
  | .settledDegraded => true
  | _ => false

/-- Steps 1 and 2 of R58: timers and evaluation stop; the outcome and the elapsed time are recorded. -/
def recordEnd (o : StepOutcome) (s : State) : State :=
  { s with
    ste.grace := none
    ste.dwell := none
    rev.evaluation := none
    ste.outcome := some o
    ste.elapsed := min (s.now - s.ste.takeAt) Config.elapsedCap }

/-- Step 6 of R58: the report is prepared, or, for a QUIET step, the engine becomes IDLE. -/
def finishStep (o : StepOutcome) (s : State) : State :=
  match s.ste.ident with
  | none => enterIdle s
  | some i =>
    if i.quiet then enterIdle s
    else
      let s := { s with ste.st := .reportWait }
      if o.isSettled then requestRoutes s else buildReport [] s

/-- The end of a step, in the order of R58. -/
def endStep (o : StepOutcome) (s : State) : State :=
  let s := recordEnd o s
  let s := if o.isSettled then { s with ste.settledMark := true } else s
  let s := if 3 ≤ o.severity then signal .stepFault s else s
  finishStep o (releaseHeld o.severity s)

/-! ## The take (R49–R51) -/

/-- The supply latch list is empty (R49, R89). -/
def Csd.latchEmpty (c : Csd) : Bool := c.latch.isEmpty

/-- An ordinary take (R49). -/
def ordinaryTake (s : State) : Bool := s.ste.st == .idle && s.csd.latchEmpty

/-- A preemptive take of a frame (R49). -/
def preemptiveTake (s : State) (f : Frame) : Bool :=
  (s.ste.st == .muting || s.ste.st == .actuating || s.ste.st == .settling)
    && f.preempt && s.rtq.report.isNone && s.csd.latchEmpty

/-- The changing set of a record: the elements of masked banks whose target differs from their in-flight destination or
recorded position; UNKNOWN always differs (R16, R51). -/
def changingSet (p : PathRec) (c : Csd) : Targets :=
  Vector.ofFn (fun e : Elem =>
    if p.masks (bankOf e) then
      if c.destination e = some p.targets[e] then none else some p.targets[e]
    else none)

/-- The identity that a take records from the frame (R50). -/
def identOf (f : Frame) : StepIdent where
  tag := f.tag
  index := f.stepIndex
  quiet := f.quiet
  freq := f.freq
  status := f.status

/-- The path record that a step frame names (R50). -/
def Tbs.stepRecord (t : Tbs) (f : Frame) : Option PathRec := t.paths[f.stepIndex.toNat]'(f.stepIndex.isLt)

/-- A take on a present record: the engine holds the step and its frame, forms the changing set and asks for the span
evaluation (R50, R51). -/
def takeRecord (x : FwdEntry) (p : PathRec) (s : State) : State :=
  let s := setHead { x with status := .held } s
  startEvaluation
    (stopIdleLead
      { s with
        ste.st := .checking
        ste.ident := some (identOf x.frame)
        ste.snapshot := some p
        ste.changing := changingSet p s.csd
        ste.landed := Vector.replicate 48 false
        ste.takeAt := s.now
        ste.hot := false
        ste.wearFlag := false
        ste.outcome := none
        ste.settledMark := false
        ste.serial := s.ste.serial + 1 })

/-- A take on an absent record: its instant is recorded and its outcome is NO_PATH; the step ends without a report, so that its
identity does not stay, and the frame goes on at once with its chain status unchanged (R46, R50; assumption log 21). -/
def takeNoPath (x : FwdEntry) (s : State) : State :=
  releaseHead x { s with ste.ident := none, ste.takeAt := s.now, ste.outcome := some .noPath }

/-- A take: NO_PATH on an absent record; on a present record the step is taken (R50). -/
def take (x : FwdEntry) (s : State) : State :=
  match s.tbs.stepRecord x.frame with
  | none => takeNoPath x s
  | some p => takeRecord x p s

/-- A preemptive take ends the step in progress, its pending launches cancelled, and takes the new frame in the same
event (R63). DESIGN CHOICE: no verify is chosen between the two; so where an idle lead of 0 sets the idle mark in the passage through
IDLE (R99), the take comes before a pull-in verify, whose order R101 leaves open (assumption log 52). -/
def preemptAndTake (x : FwdEntry) (s : State) : State :=
  let s := if s.ste.st = .actuating then cancelPending s else s
  take x (endStep .preempted s)

/-- The step frame at the head, in RUN: taken, or left to wait (R49). -/
def offerStep (x : FwdEntry) (s : State) : Option State :=
  if ordinaryTake s then some (take x s)
  else if preemptiveTake s x.frame then some (preemptAndTake x s)
  else none

/-! ## From verdict to settled routing (R52–R56) -/

/-- The outcome at the dwell's expiry (R56). -/
def settledOutcome (t : Ste) : StepOutcome := if t.hot || t.wearFlag then .settledDegraded else .settled

/-- The engine enters SETTLING: the dwell timer starts; a dwell of 0 expires at once (R56; assumption log 8). -/
def enterSettling (s : State) : State :=
  let s := { s with ste.st := .settling }
  match s.ste.snapshot with
  | none => s
  | some p =>
    if p.dwell = 0 then endStep (settledOutcome s.ste) s else { s with ste.dwell := some (s.now + p.dwell) }

/-- Every element of the changing set has landed at its target (R55). -/
def Ste.allLanded (t : Ste) : Bool := allElems.all (fun e => t.changing[e].isNone || t.landed[e])

/-- The engine enters ACTUATING and hands its changing set in; an empty one hands over nothing (R55). -/
def enterActuating (s : State) : State :=
  let s := { s with ste.st := .actuating, ste.grace := none }
  if s.ste.changing.isEmpty then s else handIn (.step s.ste.serial) s.ste.changing s

/-- The engine enters MUTING: with RF_PRESENT deasserted it passes at once to ACTUATING; otherwise the grace timer
starts, and a mute grace of 0 expires at once (R54; assumption log 8). -/
def enterMuting (s : State) : State :=
  let s := { s with ste.st := .muting }
  if !s.rfPresent then enterActuating s
  else if s.tbs.runtime.muteGrace = 0 then endStep .failedHot s
  else { s with ste.grace := some (s.now + s.tbs.runtime.muteGrace * 1000) }

/-- On leaving CHECKING for MUTING, ACTUATING or SETTLING, a step without hold stamps its frame with 0 and releases
it (R53). -/
def releaseUnlessHold (s : State) : State :=
  match s.ste.snapshot with
  | none => s
  | some p => if p.hold then s else releaseHeld 0 s

/-- The verdict of the step's span evaluation: the first case of R52's table that applies. -/
def takeVerdict (v : Verdict) (s : State) : State :=
  let s := { s with rev.evaluation := none }
  match v with
  | .interlock _ => endStep .rejectedInterlock s
  | .spanLimit _ => endStep .rejectedSpanLimit s
  | .pass =>
    if !s.csd.latchEmpty then endStep .failedSupply s
    else if s.ste.changing.isEmpty then
      if s.csd.anyInFlight then enterActuating (releaseUnlessHold s) else enterSettling (releaseUnlessHold s)
    else if s.csd.supply = .low then endStep .failedSupply s
    else enterMuting (releaseUnlessHold s)

/-- A landing as the Step Engine takes it in ACTUATING: a landing of its own changing set counts, and when all have landed
and nothing is in flight the engine enters SETTLING (R55, R64). -/
def landForEngine (e : Elem) (d : Drive) (s : State) : State :=
  if s.ste.st = .actuating then
    let s :=
      if d = .step s.ste.serial ∧ s.ste.changing[e].isSome then { s with ste.landed := s.ste.landed.set e true } else s
    if s.ste.allLanded && !s.csd.anyInFlight then enterSettling s else s
  else s

/-- The coil supply becomes low: a step in MUTING or ACTUATING ends FAILED_SUPPLY (R54, R55). -/
def supplyLowForEngine (s : State) : State :=
  match s.ste.st with
  | .muting => endStep .failedSupply s
  | .actuating => endStep .failedSupply s
  | _ => s

/-- RF_PRESENT deasserts: a step in MUTING passes to ACTUATING (R54). -/
def rfGoneForEngine (s : State) : State :=
  match s.ste.st with
  | .muting => enterActuating s
  | _ => s

/-! ## SAFE entry and soft reset (R65, R66) -/

/-- SAFE entry abandons the step in progress (R65). -/
def abandonForSafe (s : State) : State := if s.ste.holdsStep then endStep .abandonedSafe s else s

/-- SOFT_RESET puts the engine in IDLE without an outcome or a report (R66). -/
def resetEngine (s : State) : State :=
  { s with
    rev.evaluation := none
    rev.route := none
    ste.st := .idle
    ste.ident := none
    ste.snapshot := none
    ste.changing := Targets.none
    ste.landed := Vector.replicate 48 false
    ste.grace := none
    ste.dwell := none
    ste.outcome := none
    ste.report := none
    ste.hot := false
    ste.wearFlag := false
    ste.settledMark := false }

end Sys2Proof.Machine
end

