-- ==== Sys2Proof/Machine/Agent.lean ====
section
/-! DEFINITION. The Management Agent's answers (chapter 8): what a MGMT_RESP echoes, and how an answer reaches the
RESPONSE outbox. -/

namespace Sys2Proof.Machine

/-- Operation codes (section 12.5). -/
def opLoad : Byte := 0x01
def opFetch : Byte := 0x02
def opCommand : Byte := 0x03

/-- The operation is LOAD or FETCH. -/
def isTableOp (op : Byte) : Bool := op == opLoad || op == opFetch

/-- The operation is one of the three of R152. -/
def isKnownOp (op : Byte) : Bool := isTableOp op || op == opCommand

/-- What an answer echoes of its request (R155, section 12.5): the operation; the table or command byte; and the index of
a LOAD or FETCH that carries one. -/
def echoHead (payload : List Byte) : List Byte :=
  match payload with
  | [] => [0, 0]
  | op :: rest =>
    if !isKnownOp op then [op]
    else
      match rest with
      | [] => [op, 0]
      | code :: more =>
        if isTableOp op then
          match more with
          | hi :: lo :: _ => [op, code, hi, lo]
          | _ => [op, code]
        else [op, code]

/-- The result of a request: ACK with its data, or NAK with its reason (R155). -/
inductive Result
  | ack (data : List Byte)
  | nak (reason : Nak)
deriving DecidableEq, Repr

/-- The result, reason, detail and data of an answer (section 12.5). -/
def resultBytes : Result → List Byte
  | .ack data => 0 :: data
  | .nak reason => 1 :: reason.bytes

/-- The MGMT_RESP of a request (R155). -/
def answerFrame (l : Lnk) (req : Request) (x : Result) : Frame :=
  ownFrame l kindResponse req.tag (echoHead req.payload ++ resultBytes x)

/-- Offers an answer to the RESPONSE outbox: it enters an empty one and the agent becomes IDLE, and otherwise waits
(R151). -/
def placeAnswer (f : Frame) (s : State) : State :=
  match s.rtq.response with
  | none => { s with rtq.response := some f, mga := .idle }
  | some _ => { s with mga := .answerWait f }

/-- Builds and offers the answer of the request in service (R151, R155). -/
def answer (x : Result) (s : State) : State :=
  match s.mga with
  | .serving req => placeAnswer (answerFrame s.lnk req x) s
  | .idle => s
  | .answerWait _ => s

/-- An answer that waits enters the RESPONSE outbox when that is empty (R151). -/
def offerAnswer (s : State) : Option State :=
  match s.mga, s.rtq.response with
  | .answerWait f, none => some { s with rtq.response := some f, mga := .idle }
  | _, _ => none

/-- The answer of a SOFT_RESET: in the emptied RESPONSE outbox; held, with the agent still SERVING, while a pulse is in
flight (R165 step 8, R166). -/
def answerReset (s : State) : State :=
  match s.mga with
  | .serving req =>
    let s := { s with rtq.response := some (answerFrame s.lnk req (.ack [])) }
    if s.csd.anyInFlight then { s with rtq.responseHeld := true } else { s with mga := .idle }
  | .idle => s
  | .answerWait _ => s

/-- The end of the hold on the SOFT_RESET acknowledgement: the last pulse has landed or been cut (R166). -/
def endHold (s : State) : Option State :=
  if s.rtq.responseHeld && !s.csd.anyInFlight then some { s with rtq.responseHeld := false, mga := .idle } else none

end Sys2Proof.Machine
end

