-- ==== Sys2Proof/Machine/Mode.lean ====
section
/-! DEFINITION. The Mode Controller (chapter 6): table validation, ENTRY, trips, SAFE and the safe drive, the leaving of
SAFE and RUN, and the mode consequences of the coil supply. -/

namespace Sys2Proof.Machine

/-! ## Validation (R110–R112) -/

/-- The first element that fails a test, with a check code (R110). -/
def failingElement (code : Nat) (bad : Elem → Bool) : Option (Nat × Nat) :=
  (allElems.find? bad).map (fun e => (code, e.val))

/-- Check 1, ELEMENT_ABSENT. -/
def Tbs.elementAbsent (t : Tbs) (e : Elem) : Bool := t.elements[e] == .absent

/-- Check 2, CLASS_ABSENT. -/
def Tbs.classAbsent (t : Tbs) (e : Elem) : Bool :=
  match t.elements[e] with
  | .fitted c => t.classes[c].isNone
  | .absent => false
  | .notFitted => false

/-- Check 3, CLASS_CURRENT: a present class above the coil budget. -/
def Tbs.classOverBudget (t : Tbs) (c : Fin 8) : Bool :=
  match t.classes[c] with
  | some r => t.core.budget < r.current
  | none => false

/-- LINK_UNFITTED: the node is one of a NOT_FITTED element (R111). -/
def Tbs.nodeUnfitted (t : Tbs) (n : Node) : Bool :=
  match n with
  | .common e => t.elements[e] == .notFitted
  | .throw e _ => t.elements[e] == .notFitted
  | .source _ => false
  | .terminal _ => false

/-- LINK_THROW: a throw node above the throws of its element's class (R111). -/
def Tbs.nodeBeyondThrows (t : Tbs) (n : Node) : Bool :=
  match n with
  | .throw e k =>
    match t.classOf e with
    | some c => c.throws < k.val
    | none => false
  | .common _ => false
  | .source _ => false
  | .terminal _ => false

/-- A link names a node. -/
def LinkRec.names (l : LinkRec) (n : Node) : Bool := l.a == n || l.b == n

/-- LINK_SHARED: a present link of lower number names one of the link's nodes (R111). -/
def Tbs.linkShared (t : Tbs) (i : Fin 160) (l : LinkRec) : Bool :=
  allLinks.any (fun j => j.val < i.val && (t.links[j].any (fun m => m.names l.a || m.names l.b)))

/-- The first test of R111 that a present link fails, as a check code. -/
def Tbs.linkFault (t : Tbs) (i : Fin 160) : Option Nat :=
  match t.links[i] with
  | none => none
  | some l =>
    if t.nodeUnfitted l.a || t.nodeUnfitted l.b then some 4
    else if t.nodeBeyondThrows l.a || t.nodeBeyondThrows l.b then some 5
    else if t.linkShared i l then some 6
    else none

/-- Checks 4 to 6, over the links in ascending number (R111). -/
def Tbs.failingLink (t : Tbs) : Option (Nat × Nat) :=
  allLinks.findSome? (fun i => (t.linkFault i).map (fun c => (c, i.val)))

/-- A path record is valid when every target of every masked bank is valid for its element (R43). -/
def Tbs.pathValid (t : Tbs) (p : PathRec) : Bool :=
  allElems.all (fun e => !p.masks (bankOf e) || (t.validPositions e).contains p.targets[e])

/-- Check 10, PATH_INVALID, over the present records in ascending number (R43). -/
def Tbs.failingPath (t : Tbs) : Option (Nat × Nat) :=
  ((List.finRange 256).find? (fun n => t.paths[n].any (fun p => !t.pathValid p))).map (fun n => (10, n.val))

/-- The sets of the safe record's span evaluation: each element's target alone (R17, R112). -/
def safeSets (p : PathRec) : Vector (List Pos) 48 := Vector.ofFn (fun e : Elem => [p.targets[e]])

/-- Check 11, SAFE_SPAN (R112). -/
def Tbs.failingSpan (t : Tbs) (p : PathRec) : Option (Nat × Nat) :=
  match spanVerdict t (safeSets p) with
  | .pass => none
  | .interlock s => some (11, s.val)
  | .spanLimit s => some (11, s.val)

/-- Checks 7 to 11: the safe record and the other path records (R112). -/
def Tbs.failingPaths (t : Tbs) : Option (Nat × Nat) :=
  match t.core.safeIndex with
  | none => some (7, 0)
  | some n =>
    match t.paths[n] with
    | none => some (8, n.val)
    | some p =>
      if p.mask ≠ BitVec.allOnes 6 then some (9, n.val)
      else t.failingPath.orElse (fun _ => t.failingSpan p)

/-- The first check that fails, with its code and index; none when the tables are valid (R110). -/
def validate (t : Tbs) : Option (Nat × Nat) :=
  (failingElement 1 t.elementAbsent).orElse fun _ =>
  (failingElement 2 t.classAbsent).orElse fun _ =>
  (((List.finRange 8).find? t.classOverBudget).map (fun c => (3, c.val))).orElse fun _ =>
  t.failingLink.orElse fun _ => t.failingPaths

/-- A trip-enabled level condition is present (R109). -/
def State.tripConditionPresent (s : State) : Bool :=
  (s.csd.supply == .low && s.tbs.runtime.tripMask.getLsbD 6) || (s.doorIn && s.tbs.runtime.tripMask.getLsbD 7)

/-! ## The safe drive (R120, R121) -/

/-- The elements of the safe drive with their safe targets: those whose safe target differs from where they stand or are
going; UNKNOWN always differs (R120). -/
def safeTargets (s : State) : Targets :=
  match s.tbs.core.safeIndex.bind (fun n => s.tbs.paths[n]) with
  | none => Targets.none
  | some p =>
    Vector.ofFn (fun e : Elem => if s.csd.destination e = some p.targets[e] then none else some p.targets[e])

/-- Forms the safe drive: its elements are outstanding, and are handed to the Coil Scheduler in place of what was pending
(R67, R120). -/
def formSafeDrive (s : State) : State :=
  handIn .safe (safeTargets s) { s with mdc.outstanding := safeTargets s }

/-- The landing of a safe-drive pulse (R121). -/
def landSafe (e : Elem) (s : State) : State := { s with mdc.outstanding := s.mdc.outstanding.set e none }

/-- The safe drive is complete (R121). -/
def safeComplete (s : State) : Bool :=
  s.mdc.mode == .safe .driving && s.mdc.outstanding.isEmpty && !s.csd.anyInFlight && s.csd.latchEmpty

/-- What a completed safe drive leads to: SAFE_HELD, or a fresh drive where the redrive mark is set (R121). -/
def completeSafe (s : State) : Option State :=
  if safeComplete s then
    if s.mdc.redrive then some (formSafeDrive { s with mdc.redrive := false }) else some (setMode (.safe .held) s)
  else none

/-- Forms the safe drive afresh; in SAFE_HELD the sub-state becomes SAFE_DRIVING unless the drive is empty (R122, R126,
R127). -/
def redriveSafe (s : State) : State :=
  let s := formSafeDrive { s with mdc.redrive := false }
  if s.mdc.outstanding.isEmpty then s else setMode (.safe .driving) s

/-- A mismatch in SAFE (R122). -/
def mismatchInSafe (sub : SafeSub) (s : State) : State :=
  match sub with
  | .driving => { s with mdc.redrive := true }
  | .held => redriveSafe s

/-! ## SAFE entry (R119) -/

/-- The Verify Unit's part of SAFE entry: from ENTRY the slot timer starts, and the idle-lead timer where the engine is
IDLE; the recovery requests are withdrawn (R103, R106). -/
def verifyAtSafe (fromEntry : Bool) (s : State) : State :=
  let s := withdrawRecovery s
  if fromEntry then
    let s := startSlot s
    if s.ste.st = .idle then startIdleLead s else s
  else s

/-- The mode enters SAFE, in the order of R119. -/
def enterSafeMode (s : State) : State :=
  let fromEntry := s.mdc.mode != .run
  let s := setMode (.safe .driving) { s with mdc.redrive := false }
  let s := abandonForSafe s
  let s := discardLatch (cancelPending s)
  let s := verifyAtSafe fromEntry s
  formSafeDrive (signal .safeEntered s)

/-! ## ENTRY (R114–R116, R118) -/

/-- The mode enters ENTRY (R106, R114). -/
def enterEntry (o : EntryOrigin) (r : EntryRequest) (s : State) : State :=
  let s := setMode (.entry o r) { s with mdc.outstanding := Targets.none, mdc.redrive := false }
  let s := withdrawDebtForced (stopVerifyTimers s)
  { s with vfu.inHand := some (.entry 0) }

/-- ENTRY completes: the mode becomes RUN and the entry request is acknowledged (R115). -/
def enterRunMode (s : State) : State :=
  let s := answer (.ack []) (setMode .run s)
  let s := startSlot { s with ste.settledMark := false }
  if s.ste.st = .idle then startIdleLead s else s

/-- The mode becomes CONFIG from ENTRY (R106, R116). -/
def returnToConfig (s : State) : State := withdrawDebtForced (stopVerifyTimers (setMode .config s))

/-- A mismatch in ENTRY (R116). -/
def failEntry (o : EntryOrigin) (s : State) : State :=
  let s := answer (.nak .verifyFailed) (withdrawSequence s)
  match o with
  | .config => returnToConfig s
  | .safe => enterSafeMode s

/-- Another trip in ENTRY (R118). -/
def tripEntry (s : State) : State := enterSafeMode (answer (.nak .state) (withdrawSequence s))

/-- The mismatch of a verify as the Mode Controller takes it (R95, R116, R122). -/
def takeMismatch (s : State) : State :=
  match s.mdc.mode with
  | .entry o _ => failEntry o s
  | .safe sub => mismatchInSafe sub s
  | .run => s
  | .config => s

/-- A trip's effect by the mode (R117). -/
def tripBy (c : TripCause) (s : State) : State :=
  match s.mdc.mode with
  | .run => enterSafeMode s
  | .entry o _ =>
    match c with
    | .mismatch _ => failEntry o s
    | .vcoilLow => tripEntry s
    | .door => tripEntry s
    | .safeAll => tripEntry s
  | .safe _ => s
  | .config => s

/-- The Mode Controller takes the oldest trip request (R117, R174). -/
def takeTrip (s : State) : State :=
  match s.mdc.trips with
  | [] => s
  | c :: rest => tripBy c { s with mdc.trips := rest }

/-! ## Leaving SAFE and RUN (R123, R124) -/

/-- ENTER_CONFIG is accepted (R124). -/
def enterConfigAllowed (s : State) : Bool :=
  (s.mdc.mode == .run && s.ste.st == .idle) || s.mdc.mode == .safe .held

/-- The Coil Scheduler's part of leaving RUN for CONFIG: a recovery drive's pending entries are cancelled and the latch
list is discarded (R88). -/
def endRecovery (s : State) : State :=
  discardLatch (if s.csd.drive = some .recovery then cancelPending s else s)

/-- The mode becomes CONFIG from RUN or SAFE (R124). DESIGN CHOICE: a recovery drive's pending entries are cancelled before the launch
pass that the withdrawal of a debt-forced claim brings in the same event, so none of them launches (R77, R88, R102; assumption
log 38). -/
def enterConfigMode (s : State) : State :=
  let fromRun := s.mdc.mode == .run
  let s := setMode .config { s with mdc.outstanding := Targets.none, mdc.redrive := false }
  let s := withdrawRecovery (withdrawDebtForced (stopVerifyTimers s))
  if fromRun then endRecovery s else s

/-! ## The coil supply (R85, R126, R127) -/

/-- The return of the supply, by the mode (R85, R127); a launch pass follows in every mode. -/
def returnSupply (s : State) : State :=
  let s := { s with csd.supply := .good, csd.passDue := true }
  match s.mdc.mode with
  | .run => formRecovery s
  | .safe _ => redriveSafe (discardLatch s)
  | .config => discardLatch s
  | .entry _ _ => discardLatch s

/-! ## SOFT_RESET (R128) -/

/-- The Mode Controller at SOFT_RESET. -/
def resetMode (s : State) : State :=
  setMode .config
    { s with mdc.outstanding := Targets.none, mdc.redrive := false, mdc.validating := none }

end Sys2Proof.Machine
end

