-- ==== Sys2Proof/Machine/Manage.lean ====
section
/-! DEFINITION. In-band management (chapter 8): decoding a request, LOAD with the effects of each table, FETCH, and the
ten commands. -/

namespace Sys2Proof.Machine

/-! ## Presented signals (R184) -/

/-- Hands a change of the presented RF_PRESENT to its readers: a deassertion ends the wait in MUTING, an assertion with a
pulse in flight is a hot event (R54, R81). -/
def handRf (was : Bool) (s : State) : State :=
  if was && !s.rfPresent then rfGoneForEngine s
  else if !was && s.rfPresent && s.csd.anyInFlight then hotEvent s
  else s

/-- Hands a change of the presented DOOR_IN to the Event Unit (R170). -/
def handDoor (was : Bool) (s : State) : State := if !was && s.doorIn then signal .door s else s

/-- Hands on whatever of the presented signals differs from what they were. -/
def handSignals (wasRf wasDoor : Bool) (s : State) : State := handDoor wasDoor (handRf wasRf s)

/-! ## LOAD (R153) -/

/-- The refusal of a faulty field. -/
def fieldNak {α : Type} (x : Except FieldFault α) : Except Nak α :=
  match x with
  | .ok a => .ok a
  | .error f => .error (.field f.number f.sub)

/-- The mode forbids the LOAD (R153 check 3). -/
def loadForbidden (t : TableId) (i : Nat) (s : State) : Bool :=
  s.mdc.mode != .config
    && (t.configOnly || (t == .path && s.tbs.core.safeIndex.map (fun n => n.val) == some i))

/-- An element is in transit or in the pending set (R6). -/
def Csd.busy (c : Csd) (e : Elem) : Bool := c.inTransit e || c.pending[e].isSome

/-- An element's record names a class. -/
def Tbs.isOfClass (t : Tbs) (e : Elem) (c : Fin 8) : Bool := t.elements[e] == .fitted c

/-- The position that an element keeps when its class is replaced (R6). -/
def positionUnder (r : Option ClassRec) (p : Option Pos) : Option Pos :=
  match r, p with
  | some k, some q => if k.validPositions.contains q then some q else none
  | _, _ => none

/-- Stores a CLASS record (R4, R6). -/
def storeClass (c : Fin 8) (r : List Byte) (s : State) : Except Nak State := do
  let x ← fieldNak (decodeClass r)
  if allElems.any (fun e => s.tbs.isOfClass e c && s.csd.busy e) then throw .state
  return { s with
    tbs.classes := s.tbs.classes.set c x
    csd.recorded := Vector.ofFn (fun e : Elem =>
      if s.tbs.isOfClass e c then positionUnder x s.csd.recorded[e] else s.csd.recorded[e]) }

/-- The recorded position of an element after its ELEMENT record is stored (R6). -/
def positionAfterElement (old new : ElemRec) (p : Option Pos) : Option Pos :=
  if new = .notFitted then some 0 else if new = old then p else none

/-- Stores an ELEMENT record (R5, R6). -/
def storeElement (e : Elem) (r : List Byte) (s : State) : Except Nak State := do
  let x ← fieldNak (decodeElement r)
  if s.csd.busy e then throw .state
  return { s with
    tbs.elements := s.tbs.elements.set e x
    csd.recorded := s.csd.recorded.set e (positionAfterElement s.tbs.elements[e] x s.csd.recorded[e]) }

/-- Stores a LINK record (R7, R28). -/
def storeLink (l : Fin 160) (r : List Byte) (s : State) : Except Nak State := do
  let x ← fieldNak (decodeLink r)
  return { s with tbs.links := s.tbs.links.set l x }

/-- Stores an INTERLOCK entry (R24). -/
def storeInterlock (i : Fin 64) (r : List Byte) (s : State) : Except Nak State := do
  let x ← fieldNak (decodeInterlock r)
  return { s with tbs.interlock := s.tbs.interlock.set i x }

/-- Stores the CORE record; refused while the pulses driving draw more than the new budget (R157). -/
def storeCore (r : List Byte) (s : State) : Except Nak State := do
  let x ← fieldNak (decodeCore r)
  if x.budget < s.csd.charged then throw .state
  return { s with tbs.core := x }

/-- Stores an AUX record and hands on the presented signals that it changes (R180). -/
def storeAux (i : Fin 4) (r : List Byte) (s : State) : Except Nak State := do
  let x ← fieldNak (decodeAux s.axu.records i r)
  return handSignals s.rfPresent s.doorIn { s with axu.records := s.axu.records.set i x }

/-- Stores the loss row of an element and throw position 1–6 (R29). -/
def storeEloss (e : Elem) (p : Fin 6) (r : List Byte) (s : State) : Except Nak State := do
  let x ← fieldNak (decodeRow r 0 0)
  return { s with tbs.eloss := s.tbs.eloss.set e (s.tbs.eloss[e].set p x) }

/-- Stores the correction row of a terminal (R30). -/
def storeTcorr (t : Fin 32) (r : List Byte) (s : State) : Except Nak State := do
  let x ← fieldNak (decodeRow r 0 0)
  return { s with tbs.tcorr := s.tbs.tcorr.set t x }

/-- Stores the GRID record (R26). -/
def storeGrid (r : List Byte) (s : State) : Except Nak State := do
  let x ← fieldNak (decodeGrid r)
  return { s with tbs.grid := x }

/-- Stores the RUNTIME record (R158, R173, R175). -/
def storeRuntime (r : List Byte) (s : State) : Except Nak State := do
  let x ← fieldNak (decodeRuntime r)
  return { s with tbs.runtime := x }

/-- Stores a wear count (R80). -/
def storeWear (e : Elem) (r : List Byte) (s : State) : Except Nak State := do
  let x ← fieldNak (decodeWear r)
  return { s with tbs.wear := s.tbs.wear.set e x }

/-- Stores a PATH record (R42). -/
def storePath (n : Fin 256) (r : List Byte) (s : State) : Except Nak State := do
  let x ← fieldNak (decodePath s.tbs r)
  return { s with tbs.paths := s.tbs.paths.set n x }

/-- Stores a record in its table, once the index is in range (R153 checks 4 and 5). -/
def storeRecord (t : TableId) (i : Nat) (r : List Byte) (s : State) : Except Nak State :=
  match t with
  | .cls => storeClass (Fin.ofNat 8 i) r s
  | .element => storeElement (Fin.ofNat 48 i) r s
  | .link => storeLink (Fin.ofNat 160 i) r s
  | .interlock => storeInterlock (Fin.ofNat 64 i) r s
  | .core => storeCore r s
  | .aux => storeAux (Fin.ofNat 4 i) r s
  | .eloss => storeEloss (Fin.ofNat 48 (i / 256)) (Fin.ofNat 6 (i % 256 - 1)) r s
  | .tcorr => storeTcorr (Fin.ofNat 32 i) r s
  | .grid => storeGrid r s
  | .runtime => storeRuntime r s
  | .wear => storeWear (Fin.ofNat 48 i) r s
  | .path => storePath (Fin.ofNat 256 i) r s
  | .position => .error .readOnly
  | .status => .error .readOnly
  | .route => .error .readOnly

/-- A LOAD in the order of its checks: the state with the record stored, or the refusal (R153). -/
def loadRecord (t : TableId) (i : Nat) (r : List Byte) (s : State) : Except Nak State :=
  if t.readOnly then .error .readOnly
  else if !t.inRange i then .error .range
  else if loadForbidden t i s then .error .mode
  else storeRecord t i r s

/-- Serves a LOAD (R153). -/
def serveLoad (t : TableId) (i : Nat) (r : List Byte) (s : State) : State :=
  match loadRecord t i r s with
  | .ok s => answer (.ack []) s
  | .error n => answer (.nak n) s

/-! ## FETCH (R156, R159) -/

/-- The bytes of a record, with its index in range (section 12.6). -/
def fetchRecord (t : TableId) (i : Nat) (s : State) : List Byte :=
  match t with
  | .cls => encodeClass s.tbs.classes[Fin.ofNat 8 i]
  | .element => encodeElement s.tbs.elements[Fin.ofNat 48 i]
  | .link => encodeLink s.tbs.links[Fin.ofNat 160 i]
  | .interlock => encodeInterlock s.tbs.interlock[Fin.ofNat 64 i]
  | .core => encodeCore s.tbs.core
  | .aux => encodeAux s.axu.records[Fin.ofNat 4 i]
  | .eloss => encodeRow s.tbs.eloss[Fin.ofNat 48 (i / 256)][Fin.ofNat 6 (i % 256 - 1)]
  | .tcorr => encodeRow s.tbs.tcorr[Fin.ofNat 32 i]
  | .grid => encodeGrid s.tbs.grid
  | .runtime => encodeRuntime s.tbs.runtime
  | .wear => beBytes 4 s.tbs.wear[Fin.ofNat 48 i]
  | .path => encodePath s.tbs.paths[Fin.ofNat 256 i]
  | .position => positionRecord s (Fin.ofNat 48 i)
  | .status => statusRecord s
  | .route => routeRecord s (Fin.ofNat 8 i)

/-- Serves a FETCH; the free bytes of a ROUTE record are drawn once for each FETCH of that table (R156; assumption
log 5). -/
def serveFetch (t : TableId) (i : Nat) (s : State) : State :=
  if t.inRange i then
    let data := fetchRecord t i s
    answer (.ack data) (if t = .route then s.chose else s)
  else answer (.nak .range) s

/-! ## Commands (section 8.4) -/

/-- The commands of section 8.4. -/
inductive Command
  | enterRun | enterConfig | enterSafe | resume | verifyAll | verifyBank | readClearEvents | clearCounters
  | setMarker | softReset
deriving DecidableEq, Repr

/-- The command that a code names (section 12.5). -/
def commandOf (b : Byte) : Option Command :=
  match b.toNat with
  | 0x01 => some .enterRun
  | 0x02 => some .enterConfig
  | 0x03 => some .enterSafe
  | 0x04 => some .resume
  | 0x05 => some .verifyAll
  | 0x06 => some .verifyBank
  | 0x07 => some .readClearEvents
  | 0x08 => some .clearCounters
  | 0x09 => some .setMarker
  | 0x0A => some .softReset
  | _ => none

/-- The code of a command. -/
def Command.code : Command → Byte
  | .enterRun => 0x01
  | .enterConfig => 0x02
  | .enterSafe => 0x03
  | .resume => 0x04
  | .verifyAll => 0x05
  | .verifyBank => 0x06
  | .readClearEvents => 0x07
  | .clearCounters => 0x08
  | .setMarker => 0x09
  | .softReset => 0x0A

/-- Argument bytes of a command (section 12.5). -/
def Command.argumentBytes : Command → Nat
  | .verifyBank => 1
  | .readClearEvents => 2
  | .setMarker => 4
  | .enterRun => 0
  | .enterConfig => 0
  | .enterSafe => 0
  | .resume => 0
  | .verifyAll => 0
  | .clearCounters => 0
  | .softReset => 0

/-- ENTER_RUN: refused outside CONFIG or against a standing trip condition; otherwise validation begins (R109). -/
def serveEnterRun (s : State) : State :=
  if s.mdc.mode ≠ .config || s.tripConditionPresent then answer (.nak .state) s
  else { s with mdc.validating := some s.now }

/-- RESUME: accepted in SAFE_HELD with no standing trip condition (R123). -/
def serveResume (s : State) : State :=
  if s.mdc.mode ≠ .safe .held || s.tripConditionPresent then answer (.nak .state) s
  else enterEntry .safe .resume s

/-- ENTER_CONFIG (R124). -/
def serveEnterConfig (s : State) : State :=
  if enterConfigAllowed s then answer (.ack []) (enterConfigMode s) else answer (.nak .state) s

/-- ENTER_SAFE (R125). ENTRY is not reached by it; the agent is then busy. -/
def serveEnterSafe (s : State) : State :=
  match s.mdc.mode with
  | .run => answer (.ack []) (enterSafeMode s)
  | .safe _ => answer (.ack []) s
  | .config => answer (.nak .state) s
  | .entry _ _ => answer (.nak .state) s

/-- VERIFY_ALL is placed in the Verify Unit's hand, BK0 first (R105). -/
def serveVerifyAll (s : State) : State := { s with vfu.inHand := some (.all 0) }

/-- VERIFY_BANK: refused RANGE, ALREADY or LIMIT in this order, or placed in the Verify Unit's hand (R104). -/
def serveVerifyBank (bank : Byte) (s : State) : State :=
  if h : bank.toNat < 6 then
    if s.vfu.inRound ⟨bank.toNat, h⟩ then answer (.nak .already) s
    else if s.vfu.debt = -3 then answer (.nak .limit) s
    else { s with vfu.inHand := some (.bank ⟨bank.toNat, h⟩) }
  else answer (.nak .range) s

/-- READ_CLEAR_EVENTS: the answer carries the latched set as it stood before the clearing (R162, R176). -/
def serveReadClear (mask : BitVec 16) (s : State) : State :=
  answer (.ack (beBytes 2 s.evu.latched.toNat)) (clearFlags mask s)

/-- CLEAR_COUNTERS: the six Link Interface counters and the hot-switch counter (R162). -/
def serveClearCounters (s : State) : State :=
  answer (.ack [])
    { s with
      lnk.a := { s.lnk.a with checkErrors := 0 }
      lnk.b := { s.lnk.b with checkErrors := 0 }
      lnk.fwdDrops := 0
      lnk.retDrops := 0
      lnk.urgentDrops := 0
      lnk.endDiscards := 0
      evu.hotCount := 0 }

/-- SET_MARKER: the answer carries the marker as now held (R163). -/
def serveSetMarker (v : BitVec 32) (s : State) : State :=
  answer (.ack (beBytes 4 v.toNat)) { s with tbs.marker := v }

/-- The Coil Scheduler at SOFT_RESET (R78). -/
def resetCoil (s : State) : State := discardLatch (cancelPending s)

/-- The activity after SOFT_RESET: a claim is released, a verify in progress goes on for nobody (R103, R107). -/
def activityAfterReset : Activity → Activity
  | .free => .free
  | .claimed _ _ => .free
  | .verifying b _ due => .verifying b .withdrawn due

/-- The Verify Unit at SOFT_RESET (R107). -/
def resetVerify (s : State) : State :=
  { s with
    vfu.activity := activityAfterReset s.vfu.activity
    vfu.debt := 0
    vfu.round := 0
    vfu.slot := none
    vfu.idleLead := none
    vfu.idleMark := false
    vfu.requests := []
    vfu.inHand := none }

/-- The Event Unit at SOFT_RESET: every flag is cleared, and the level conditions are read in the first event after it
(R178). -/
def resetEvents (s : State) : State := refreshAlert { s with evu.latched := 0, evu.readDue := some .soft }

/-- SOFT_RESET, in the order of R165. -/
def serveSoftReset (s : State) : State :=
  answerReset (flushChain (resetEvents (resetVerify (resetCoil (resetEngine (resetMode s))))))

/-- Serves a command with its argument (section 8.4). -/
def serveCommand (c : Command) (arg : List Byte) (s : State) : State :=
  match c with
  | .enterRun => serveEnterRun s
  | .enterConfig => serveEnterConfig s
  | .enterSafe => serveEnterSafe s
  | .resume => serveResume s
  | .verifyAll => serveVerifyAll s
  | .verifyBank => serveVerifyBank (byteAt arg 0) s
  | .readClearEvents => serveReadClear (BitVec.ofNat 16 (beNat arg)) s
  | .clearCounters => serveClearCounters s
  | .setMarker => serveSetMarker (BitVec.ofNat 32 (beNat arg)) s
  | .softReset => serveSoftReset s

/-! ## Decoding (R152) -/

/-- What a decoded request asks for. -/
inductive Decoded
  | load (t : TableId) (index : Nat) (record : List Byte)
  | fetch (t : TableId) (index : Nat)
  | command (c : Command) (arg : List Byte)
deriving DecidableEq, Repr

/-- Decodes a LOAD or FETCH whose table byte and what follows it are given (R152 steps 2 and 3). -/
def decodeTableOp (op table : Byte) (rest : List Byte) : Except Nak Decoded :=
  match tableOf table with
  | none => .error .noTable
  | some t =>
    if op = opLoad then
      if rest.length = 2 + t.recordBytes then .ok (.load t (beNat (rest.take 2)) (rest.drop 2))
      else .error .badLength
    else if rest.length = 2 then .ok (.fetch t (beNat rest))
    else .error .badLength

/-- Decodes a COMMAND (R152 steps 2 and 3). -/
def decodeCommand (code : Byte) (arg : List Byte) : Except Nak Decoded :=
  match commandOf code with
  | none => .error .noTable
  | some c => if arg.length = c.argumentBytes then .ok (.command c arg) else .error .badLength

/-- Decodes the payload of a MGMT_REQ; the first check that fails decides the answer (R152). -/
def decodeRequest (payload : List Byte) : Except Nak Decoded :=
  match payload with
  | [] => .error .badLength
  | op :: rest =>
    if !isKnownOp op then .error .noTable
    else
      match rest with
      | [] => .error .badLength
      | code :: more => if isTableOp op then decodeTableOp op code more else decodeCommand code more

/-- Serves a decoded request (R152 step 4). -/
def serve (d : Decoded) (s : State) : State :=
  match d with
  | .load t i r => serveLoad t i r s
  | .fetch t i => serveFetch t i s
  | .command c arg => serveCommand c arg s

/-- The handing of a MGMT_REQ to the agent: it leaves IDLE for SERVING, decodes the request and serves it in the same event
(R151, R152). -/
def handRequest (f : Frame) (s : State) : State :=
  let s := { s with mga := .serving { tag := f.tag, payload := f.payload } }
  match decodeRequest f.payload with
  | .ok d => serve d s
  | .error n => answer (.nak n) s

end Sys2Proof.Machine
end

