-- ==== Sys2Proof/Machine/Settle.lean ====
section
/-! DEFINITION. What an event brings about in the other blocks within the same event: the examination of the forward head,
the launch pass and the verify choice that are due, the outboxes and the transmitters. `settle` draws these
consequences until none is left (assumption log 6). -/

namespace Sys2Proof.Machine

/-! ## The forward head (R48, R139, R140) -/

/-- A frame is a management request for this node, or for every node, that the part hands to its agent (R131, R135). -/
def requestFor (l : Lnk) (f : Frame) (dest : Byte) : Bool := f.kind == kindRequest && f.dest == dest && !l.transparent

/-- A request asks for SOFT_RESET (R152, R165). -/
def asksSoftReset (f : Frame) : Bool :=
  match decodeRequest f.payload with
  | .ok (.command .softReset _) => true
  | _ => false

/-- Where a broadcast SOFT_RESET has just been released and the transmitter of Port B could begin, the order of that beginning
and of the flush is free: the copy is forwarded if its transmission has begun before the flush (R154; assumption log 33). -/
def beginCopy (f : Frame) (s : State) : State :=
  if asksSoftReset f then
    match startTxB s with
    | none => s
    | some t => if Config.copyBeforeFlush s.choices then t.chose else s.chose
  else s

/-- A broadcast request: its copy is handed to the agent, and the frame released for forwarding; at the chain end the
forward copy is then dealt with (R140, R141). -/
def handBroadcast (x : FwdEntry) (s : State) : State :=
  let s := handRequest x.frame (beginCopy x.frame (setHead { x with status := .released } s))
  (dealAtChainEnd s).getD s

/-- The treatment of a head not yet released or held, by the table of R139. A step frame examined in CONFIG, ENTRY or SAFE, or in a
transparent part, is stamped SKIPPED and released (R48). -/
def treatHead (x : FwdEntry) (s : State) : Option State :=
  if x.frame.isStep then
    if s.lnk.transparent || s.mdc.mode ≠ .run then
      some (releaseHead { x with frame := x.frame.stamp 2, own := true } s)
    else offerStep x s
  else if requestFor s.lnk x.frame s.lnk.addrByte then some (handRequest x.frame (departFwd s))
  else if requestFor s.lnk x.frame broadcast then some (handBroadcast x s)
  else some (releaseHead x s)

/-- The examination of the head, while the Management Agent is idle (R139, R151, R160). DEDUCED: a step frame that stands at the head
in ENTRY waits for the agent, which is busy throughout (sections 6.2 and 11.7), although R48 speaks of it as forwarded (assumption
log 31). -/
def examineHead (s : State) : Option State :=
  match s.mga, s.fwq.queue with
  | .idle, x :: _ =>
    match x.status with
    | .released => dealAtChainEnd s
    | .held => none
    | .waiting => treatHead x s
  | _, _ => none

/-! ## The launch pass and the verify choice (R73, R74, R100, R101) -/

/-- A launch pass made now would launch into the bank. -/
def passLaunchesIn (s : State) (b : Bank) : Bool :=
  (elemsOf b).any (fun e => !s.csd.inTransit e && (launchPass s).csd.inTransit e)

/-- The bank that the Verify Unit holds, claimed or verified (R92). -/
def Activity.bank : Activity → Option Bank
  | .free => none
  | .claimed b _ => some b
  | .verifying b _ _ => some b

/-- The launch pass that is due. Where the Verify Unit would take a bank into which the pass would launch, the order is
free (R74). -/
def makePass (s : State) : Option State :=
  if s.csd.passDue then
    match verifyAction s with
    | none => some (launchPass s)
    | some v =>
      if v.vfu.activity.bank.any (passLaunchesIn s) then
        if Config.verifyBeforeLaunch s.choices then some v.chose else some (launchPass s.chose)
      else some (launchPass s)
  else none

/-- An ordinary or pull-in verify has been started. -/
def Activity.isSlotVerify : Activity → Bool
  | .verifying _ .ordinary _ => true
  | .verifying _ .pullIn _ => true
  | _ => false

/-- The Verify Unit's choice or start. Where an ordinary or pull-in verify and a take fall together, the order is free (R101), but for the
idle mark that a preemptive take itself sets and clears (assumption log 52). -/
def chooseVerify (s : State) : Option State :=
  match verifyAction s, examineHead s with
  | none, _ => none
  | some v, none => some v
  | some v, some h =>
    if v.vfu.activity.isSlotVerify && h.ste.serial != s.ste.serial then
      if Config.verifyBeforeTake s.choices then some v.chose else some h.chose
    else some v

/-! ## All consequences -/

/-- The first consequence that is due, or none when the event is complete. DESIGN CHOICE: where the manual leaves the order of two
consequences of one event open, this order stands, but for the free ones of `makePass`, `chooseVerify` and `beginCopy`.
- The whole of the event's own effect comes before the Verify Unit's choice and the examination of the head; so the route request of a
  step that ends is made before a LOAD that its release has made the head is served (R37, R58, R101; assumption log 51).
- The head is examined, and a request served, before a transmitter begins its next frame; so a SOFT_RESET at the head flushes an urgent
  frame or a Return Queue head that could have begun to be sent (R138, R150; assumption log 39).
- A launch pass is made after the whole of the event's own effect: its flags, its answers, its mode changes and the drive it forms
  (R73, R94; assumption log 49).
- A launch pass is made before the head is examined, whose preemptive take or served request cancels pending entries (R63, R77),
  loads a wear count (R80) or reads what launches change (assumption log 42).
- The Verify Unit chooses before a request at the head is served (R100; assumption log 44), and before a completed safe drive is formed
  afresh and passes (R74, R121; assumption log 45).
- The admission pass comes after the launch pass, the verify choice, the completion of a safe drive, the examination of the head and
  what these bring about; so HOT and WEAR of a launch and the mode SAFE_HELD reach an ALERT that the event built, as what the head
  brings does (R73, R121, R139, R145, R151, R172; assumption log 46).
- The completion of a safe drive comes before the examination of the head (R121; assumption log 48). -/
def react (s : State) : Option State :=
  (restartEvaluation s).orElse fun _ =>
  (makePass s).orElse fun _ =>
  (chooseVerify s).orElse fun _ =>
  (completeSafe s).orElse fun _ =>
  (endHold s).orElse fun _ =>
  (offerAnswer s).orElse fun _ =>
  (offerReport s).orElse fun _ =>
  (examineHead s).orElse fun _ =>
  (admissionPass s).orElse fun _ =>
  (startTxB s).orElse fun _ => startTxA s

/-- Draws the consequences of an event, one after another, until none is due. -/
def settle : Nat → State → State
  | 0, s => s
  | fuel + 1, s =>
    match react s with
    | none => s
    | some t => settle fuel t

/-- All consequences of an event. DESIGN CHOICE: they include the admission pass that follows the filling of an outbox, so that no
TRIP is taken between the two (R145, R172, section 11.6; assumption log 41). -/
def settled (s : State) : State := settle Config.settleFuel s

/-- The reading of the level conditions, as the first event after a reset (R178). -/
def levelRead (s : State) : State :=
  match s.evu.readDue with
  | none => s
  | some _ => settled (readLevelConditions s)

/-- One event of the part: nothing while RESET_N is asserted; otherwise the effect, with the reading of the level
conditions before it when a reset has just taken place, and the consequences after it. -/
def event (effect : State → State) (s : State) : State :=
  if s.inReset then s else settled (effect (levelRead s))

end Sys2Proof.Machine
end

