-- ==== Sys2Proof/Machine/ExecChain.lean ====
section
/-! DEFINITION. Meanings of the chain events: LINK_UP, LINK_DOWN, FRAME_RECEIVED, FLOW_MARK_RECEIVED, TRANSMISSION_END. -/

namespace Sys2Proof.Machine

/-- LINK_UP (R129). -/
def execLinkUp (time : Nat) (port : Port) (s : State) : Host.Outcome State Fault Refusal :=
  .next (event (fun s => bringUp port (s.advance time)) s)

/-- LINK_DOWN (R129). -/
def execLinkDown (time : Nat) (port : Port) (s : State) : Host.Outcome State Fault Refusal :=
  .next (event (fun s => takeDown port (s.advance time)) s)

/-- FRAME_RECEIVED (R132). -/
def execFrameReceived (time : Nat) (port : Port) (bytes : List Byte) (s : State) : Host.Outcome State Fault Refusal :=
  .next (event (fun s => receiveFrame port bytes (s.advance time)) s)

/-- FLOW_MARK_RECEIVED (R147). -/
def execFlowMarkReceived (time : Nat) (port : Port) (mark : Mark) (s : State) : Host.Outcome State Fault Refusal :=
  .next (event (fun s => receiveMark port mark (s.advance time)) s)

/-- TRANSMISSION_END (R130). -/
def execTransmissionEnd (time : Nat) (port : Port) (s : State) : Host.Outcome State Fault Refusal :=
  .next (event (fun s => endTransmission port (s.advance time)) s)

end Sys2Proof.Machine
end

