-- ==== Sys2Proof/Machine/ExecCoil.lean ====
section
/-! DEFINITION. Meanings of the coil events: PULSE_END, PULSE_LAND, BANK_RECOVERY_REACHED, LOCKOUT_ELAPSED, VCOIL_LOW,
SUPPLY_RETURN. -/

namespace Sys2Proof.Machine

/-- The end of an element's driving pulse (R70). -/
def pulseEndEffect (e : Elem) (s : State) : State :=
  match s.csd.pulses[e] with
  | some p => if p.phase = .driving then endPulse e p (s.advance p.endAt) else s
  | none => s

/-- A landing is reported to the drive that the pulse belongs to, and to the Step Engine (R71). -/
def reportLanding (e : Elem) (d : Drive) (s : State) : State :=
  match d with
  | .step _ => landForEngine e d s
  | .safe => landForEngine e d (landSafe e s)
  | .recovery => landForEngine e d (landRecovery e s)

/-- The landing of an element's settling pulse (R71). -/
def pulseLandEffect (e : Elem) (s : State) : State :=
  match s.csd.pulses[e] with
  | some p => if p.phase = .settleTime then reportLanding e p.drive (landPulse e p (s.advance p.landAt)) else s
  | none => s

/-- A bank's recovery-until instant is reached (R73). -/
def recoveryEffect (b : Bank) (s : State) : State :=
  match s.csd.recoveryUntil[b] with
  | some t => { s.advance t with csd.passDue := true }
  | none => s

/-- The expiry of an element's reversal lockout is taken (R72, R74). -/
def endLockout (e : Elem) (due : Nat) (s : State) : State :=
  { s.advance due with csd.lockoutOver := s.csd.lockoutOver.set e (some due) }

/-- The reversal lockout of an element elapses; a launch pass follows where the element is pending (R72, R73). -/
def lockoutEffect (e : Elem) (s : State) : State :=
  match s.tbs.classOf e, s.csd.lastLaunch[e] with
  | some c, some t =>
    let s := endLockout e (t + c.lockout) s
    if s.csd.pending[e].isSome then { s with csd.passDue := true } else s
  | _, _ => s

/-- The beginning of VCOIL_LOW: the Coil Scheduler cuts and cancels, the Event Unit latches the flag and may request a trip,
and the Step Engine ends a step in MUTING or ACTUATING (R54, R55, R82, R83, R170). -/
def supplyLowEffect (time : Nat) (s : State) : State :=
  match s.csd.supply with
  | .low => s
  | .good => supplyLowForEngine (signal .vcoilLow (cutSupply (s.advance time)))

/-- The return of the coil supply (R85, R126, R127). -/
def supplyReturnEffect (time : Nat) (s : State) : State :=
  match s.csd.supply with
  | .good => s
  | .low => returnSupply (s.advance time)

/-- PULSE_END (R70). -/
def execPulseEnd (e : Elem) (s : State) : Host.Outcome State Fault Refusal := .next (event (pulseEndEffect e) s)

/-- PULSE_LAND (R71). -/
def execPulseLand (e : Elem) (s : State) : Host.Outcome State Fault Refusal := .next (event (pulseLandEffect e) s)

/-- BANK_RECOVERY_REACHED (R73). -/
def execBankRecoveryReached (b : Bank) (s : State) : Host.Outcome State Fault Refusal :=
  .next (event (recoveryEffect b) s)

/-- LOCKOUT_ELAPSED (R72). -/
def execLockoutElapsed (e : Elem) (s : State) : Host.Outcome State Fault Refusal := .next (event (lockoutEffect e) s)

/-- VCOIL_LOW (R83). -/
def execVcoilLow (time : Nat) (s : State) : Host.Outcome State Fault Refusal := .next (event (supplyLowEffect time) s)

/-- SUPPLY_RETURN (R85). -/
def execSupplyReturn (time : Nat) (s : State) : Host.Outcome State Fault Refusal :=
  .next (event (supplyReturnEffect time) s)

end Sys2Proof.Machine
end

