-- ==== Sys2Proof/Machine/ExecLine.lean ====
section
/-! DEFINITION. Meaning of the line event PRESENTED_SIGNAL_CHANGE. -/

namespace Sys2Proof.Machine

/-- The level sampled at a line changes, and with it the signal that the line presents, if it is assigned one (R184). -/
def lineEffect (time : Nat) (line : Fin 4) (level : Bool) (s : State) : State :=
  handSignals s.rfPresent s.doorIn { s.advance time with axu.levels := s.axu.levels.set line level }

/-- PRESENTED_SIGNAL_CHANGE (R184). -/
def execPresentedSignalChange (time : Nat) (line : Fin 4) (level : Bool) (s : State) :
    Host.Outcome State Fault Refusal :=
  .next (event (lineEffect time line level) s)

end Sys2Proof.Machine
end

