-- ==== Sys2Proof/Machine/ExecManage.lean ====
section
/-! DEFINITION. Meanings of the management commands and of the Mode Controller's own events VALIDATION_COMPLETE and TRIP. A
management command is the arrival on Port A of the MGMT_REQ frame that carries it; it is handed and served in that event
when it stands at the head with the agent idle, and waits its turn otherwise (R139, R151; assumption log 1). -/

namespace Sys2Proof.Machine

/-- The MGMT_REQ frame that carries a request's payload (R131, R152). -/
def requestFrame (l : Lnk) (h : ReqHead) (payload : List Byte) : Frame :=
  let f : Frame :=
    { kind := kindRequest, dest := h.dest, src := h.src, tag := h.tag, payload := payload, check := 0 }
  { f with check := f.computedCheck l.sense }

/-- A request arrives on Port A; a DOWN link receives nothing (R129, R137). -/
def requestArrives (h : ReqHead) (payload : List Byte) (s : State) : State :=
  match s.lnk.a.link with
  | .down => s
  | .up => placeFrame .a (requestFrame s.lnk h payload) (s.advance h.time)

/-- The payload of a command (section 12.5). -/
def commandPayload (c : Command) (arg : List Byte) : List Byte := [opCommand, c.code] ++ arg

/-- The outcome of a validation: the refusal with the code and index of the failed check, or ENTRY (R113). DESIGN CHOICE: a level
condition that has begun since ENTER_RUN was checked does not keep ENTRY from being entered (R109, R175; assumption log 40). -/
def validationEffect (time : Nat) (s : State) : State :=
  match s.mdc.validating with
  | none => s
  | some _ =>
    let s := { s.advance time with mdc.validating := none }
    match validate s.tbs with
    | some (code, index) => answer (.nak (.validation code index)) s
    | none => enterEntry .config .enterRun s

/-- LOAD (R153). -/
def execLoad (head : ReqHead) (table : Byte) (index : BitVec 16) (record : List Byte) (s : State) :
    Host.Outcome State Fault Refusal :=
  .next (event (requestArrives head ([opLoad, table] ++ beBytes 2 index.toNat ++ record)) s)

/-- FETCH (R156). -/
def execFetch (head : ReqHead) (table : Byte) (index : BitVec 16) (s : State) : Host.Outcome State Fault Refusal :=
  .next (event (requestArrives head ([opFetch, table] ++ beBytes 2 index.toNat)) s)

/-- ENTER_RUN (R109). -/
def execEnterRun (head : ReqHead) (s : State) : Host.Outcome State Fault Refusal :=
  .next (event (requestArrives head (commandPayload .enterRun [])) s)

/-- VALIDATION_COMPLETE (R113). -/
def execValidationComplete (time : Nat) (s : State) : Host.Outcome State Fault Refusal :=
  .next (event (validationEffect time) s)

/-- RESUME (R123). -/
def execResume (head : ReqHead) (s : State) : Host.Outcome State Fault Refusal :=
  .next (event (requestArrives head (commandPayload .resume [])) s)

/-- ENTER_CONFIG (R124). -/
def execEnterConfig (head : ReqHead) (s : State) : Host.Outcome State Fault Refusal :=
  .next (event (requestArrives head (commandPayload .enterConfig [])) s)

/-- ENTER_SAFE (R125). -/
def execEnterSafe (head : ReqHead) (s : State) : Host.Outcome State Fault Refusal :=
  .next (event (requestArrives head (commandPayload .enterSafe [])) s)

/-- TRIP (R117). -/
def execTrip (time : Nat) (s : State) : Host.Outcome State Fault Refusal :=
  .next (event (fun s => takeTrip (s.advance time)) s)

/-- VERIFY_ALL (R105). -/
def execVerifyAll (head : ReqHead) (s : State) : Host.Outcome State Fault Refusal :=
  .next (event (requestArrives head (commandPayload .verifyAll [])) s)

/-- VERIFY_BANK (R104). -/
def execVerifyBank (head : ReqHead) (bank : Byte) (s : State) : Host.Outcome State Fault Refusal :=
  .next (event (requestArrives head (commandPayload .verifyBank [bank])) s)

/-- READ_CLEAR_EVENTS (R176). -/
def execReadClearEvents (head : ReqHead) (mask : BitVec 16) (s : State) : Host.Outcome State Fault Refusal :=
  .next (event (requestArrives head (commandPayload .readClearEvents (beBytes 2 mask.toNat))) s)

/-- CLEAR_COUNTERS (R162). -/
def execClearCounters (head : ReqHead) (s : State) : Host.Outcome State Fault Refusal :=
  .next (event (requestArrives head (commandPayload .clearCounters [])) s)

/-- SET_MARKER (R163). -/
def execSetMarker (head : ReqHead) (value : BitVec 32) (s : State) : Host.Outcome State Fault Refusal :=
  .next (event (requestArrives head (commandPayload .setMarker (beBytes 4 value.toNat))) s)

/-- SOFT_RESET (R165). -/
def execSoftReset (head : ReqHead) (s : State) : Host.Outcome State Fault Refusal :=
  .next (event (requestArrives head (commandPayload .softReset [])) s)

end Sys2Proof.Machine
end

