-- ==== Sys2Proof/Machine/ExecReset.lean ====
section
/-! DEFINITION. Meanings of the reset events: POWER_ON, RESET_N, RESET_N_RELEASE, LEVEL_CONDITIONS_READ. -/

namespace Sys2Proof.Machine

/-- The part after a sampling of its pins: every block at its reset values, time, choices and the waiting commands as they
were (R134, and the reset rule of each block). -/
def restart (p : Pins) (t : Nat) (s : State) : State := State.initial p (max s.now t) s.choices s.pending

/-- The pins as the part holds them from their last sampling. -/
def State.heldPins (s : State) : Pins where
  addr := s.lnk.addr
  margin := s.lnk.margin
  sense := s.lnk.sense
  linkA := s.lnk.a.link
  linkB := s.lnk.b.link
  supply := s.csd.supply
  levels := s.axu.levels

/-- While RESET_N is asserted: nothing is in flight, in progress or in service, every line is high-impedance, and no flag
is latched until the release (R68, R93, R107, R167, R178, R179). -/
def heldInReset (t : Nat) (s : State) : State :=
  let r := restart s.heldPins t s
  { r with inReset := true, evu.latched := 0, evu.readDue := none }

/-- POWER_ON (R134). -/
def execPowerOn (time : Nat) (pins : Pins) (s : State) : Host.Outcome State Fault Refusal :=
  .next (restart pins time s)

/-- RESET_N is asserted (R68). -/
def execResetN (time : Nat) (s : State) : Host.Outcome State Fault Refusal := .next (heldInReset time s)

/-- RESET_N is released; with RESET_N not asserted there is nothing to release (R134). -/
def execResetNRelease (time : Nat) (pins : Pins) (s : State) : Host.Outcome State Fault Refusal :=
  .next (if s.inReset then restart pins time s else s)

/-- The first event after a reset, with no other effect (R178). -/
def execLevelConditionsRead (time : Nat) (s : State) : Host.Outcome State Fault Refusal :=
  .next (event (fun s => s.advance time) s)

end Sys2Proof.Machine
end

