-- ==== Sys2Proof/Machine/ExecStep.lean ====
section
/-! DEFINITION. Meanings of the step events: SPAN_VERDICT, GRACE_TIMER_EXPIRY, DWELL_TIMER_EXPIRY, ROUTE_REQUEST_COMPLETE. An
event that finds its evaluation, timer or request gone has no effect (R54, R58, R65). -/

namespace Sys2Proof.Machine

/-- The verdict of the evaluation in progress (R20, R21, R52). -/
def verdictEffect (time : Nat) (s : State) : State :=
  match s.ste.st, s.rev.evaluation with
  | .checking, some v => takeVerdict (runWalk s.tbs v.sets Config.walkFuel v.walk) (s.advance time)
  | _, _ => s

/-- The expiry of the grace timer (R54). -/
def graceEffect (s : State) : State :=
  match s.ste.st, s.ste.grace with
  | .muting, some due => endStep .failedHot (s.advance due)
  | _, _ => s

/-- The expiry of the dwell timer (R56). -/
def dwellEffect (s : State) : State :=
  match s.ste.st, s.ste.dwell with
  | .settling, some due => endStep (settledOutcome s.ste) (s.advance due)
  | _, _ => s

/-- The completion of the route request (R61). -/
def routesEffect (time : Nat) (s : State) : State :=
  match s.rev.route with
  | some r => buildReport r.results { s.advance time with rev.route := none }
  | none => s

/-- SPAN_VERDICT (R52). -/
def execSpanVerdict (time : Nat) (s : State) : Host.Outcome State Fault Refusal := .next (event (verdictEffect time) s)

/-- GRACE_TIMER_EXPIRY (R54). -/
def execGraceTimerExpiry (s : State) : Host.Outcome State Fault Refusal := .next (event graceEffect s)

/-- DWELL_TIMER_EXPIRY (R56). -/
def execDwellTimerExpiry (s : State) : Host.Outcome State Fault Refusal := .next (event dwellEffect s)

/-- ROUTE_REQUEST_COMPLETE (R61). -/
def execRouteRequestComplete (time : Nat) (s : State) : Host.Outcome State Fault Refusal :=
  .next (event (routesEffect time) s)

end Sys2Proof.Machine
end

