-- ==== Sys2Proof/Machine/ExecVerify.lean ====
section
/-! DEFINITION. Meanings of the verify events: VERIFY_COMPLETE, SLOT_TIMER_EXPIRY, IDLE_LEAD_EXPIRY. -/

namespace Sys2Proof.Machine

/-- The completion of a verify of the command in hand (R104, R105, R115). A mismatch ends the ENTRY sequence instead of
carrying it on (R116). -/
def completeCommand (mismatched : Bool) (s : State) : State :=
  match s.vfu.inHand with
  | none => s
  | some (.bank _) => answer (.ack []) { s with vfu.inHand := none }
  | some (.all b) =>
    match bankAfter b with
    | some n => { s with vfu.inHand := some (.all n) }
    | none => answer (.ack []) (endSequence s)
  | some (.entry b) =>
    if mismatched then s
    else
      match bankAfter b with
      | some n => { s with vfu.inHand := some (.entry n) }
      | none => enterRunMode (endSequence s)

/-- The completion as its requester takes it (R87, R94, R104, R105). -/
def completeFor (k : VerifyKind) (b : Bank) (mismatched : Bool) (s : State) : State :=
  match k with
  | .command => completeCommand mismatched s
  | .recovery => completeRequested b s
  | .debtForced => s
  | .ordinary => s
  | .pullIn => s
  | .withdrawn => s

/-- The completion of the verify in progress, with the contacts read: the position table, debt and round; the requester;
and a mismatch to the Event Unit and the Mode Controller (R94, R95). DESIGN CHOICE: the launch pass that `completeReading` makes due
comes after all of these, so after the MISMATCH signal (R73, R94; assumption log 49). -/
def verifyEffect (contacts : List (BitVec 7)) (s : State) : State :=
  match s.vfu.activity with
  | .verifying b k due =>
    let mismatched := bankMismatched s b contacts
    let s := completeFor k b mismatched (completeReading b contacts (s.advance due))
    if mismatched then takeMismatch (signal (.mismatch b) s) else s
  | .free => s
  | .claimed _ _ => s

/-- A slot expiry's effect on the debt: one more, or a lost slot at 5 (R98). -/
def raiseDebt (s : State) : State :=
  if s.vfu.debt = 5 then signal .verifyLate s else { s with vfu.debt := debtUp s.vfu.debt }

/-- The expiry of the slot timer, which restarts at once (R97, R98). -/
def slotEffect (s : State) : State :=
  match s.vfu.slot with
  | some due => raiseDebt (startSlot (s.advance due))
  | none => s

/-- The expiry of the idle-lead timer sets the idle mark (R99). -/
def idleLeadEffect (s : State) : State :=
  match s.vfu.idleLead with
  | some due => { s.advance due with vfu.idleLead := none, vfu.idleMark := true }
  | none => s

/-- VERIFY_COMPLETE (R94). -/
def execVerifyComplete (contacts : List (BitVec 7)) (s : State) : Host.Outcome State Fault Refusal :=
  .next (event (verifyEffect contacts) s)

/-- SLOT_TIMER_EXPIRY (R98). -/
def execSlotTimerExpiry (s : State) : Host.Outcome State Fault Refusal := .next (event slotEffect s)

/-- IDLE_LEAD_EXPIRY (R99). -/
def execIdleLeadExpiry (s : State) : Host.Outcome State Fault Refusal := .next (event idleLeadEffect s)

end Sys2Proof.Machine
end

