-- ==== Sys2Proof/Machine/Dispatch.lean ====
section
/-! DEFINITION. The dispatch of a command to its meaning, one arm for each row of the table of operations and events. -/

namespace Sys2Proof.Machine

def exec (i : Instr) (s : State) : Host.Outcome State Fault Refusal :=
  match i with
  | .powerOn time pins => Sys2Proof.Machine.execPowerOn time pins s
  | .resetN time => Sys2Proof.Machine.execResetN time s
  | .resetNRelease time pins => Sys2Proof.Machine.execResetNRelease time pins s
  | .levelConditionsRead time => Sys2Proof.Machine.execLevelConditionsRead time s
  | .linkUp time port => Sys2Proof.Machine.execLinkUp time port s
  | .linkDown time port => Sys2Proof.Machine.execLinkDown time port s
  | .frameReceived time port bytes => Sys2Proof.Machine.execFrameReceived time port bytes s
  | .flowMarkReceived time port mark => Sys2Proof.Machine.execFlowMarkReceived time port mark s
  | .transmissionEnd time port => Sys2Proof.Machine.execTransmissionEnd time port s
  | .spanVerdict time => Sys2Proof.Machine.execSpanVerdict time s
  | .graceTimerExpiry => Sys2Proof.Machine.execGraceTimerExpiry s
  | .dwellTimerExpiry => Sys2Proof.Machine.execDwellTimerExpiry s
  | .routeRequestComplete time => Sys2Proof.Machine.execRouteRequestComplete time s
  | .pulseEnd e => Sys2Proof.Machine.execPulseEnd e s
  | .pulseLand e => Sys2Proof.Machine.execPulseLand e s
  | .bankRecoveryReached b => Sys2Proof.Machine.execBankRecoveryReached b s
  | .lockoutElapsed e => Sys2Proof.Machine.execLockoutElapsed e s
  | .vcoilLow time => Sys2Proof.Machine.execVcoilLow time s
  | .supplyReturn time => Sys2Proof.Machine.execSupplyReturn time s
  | .verifyComplete contacts => Sys2Proof.Machine.execVerifyComplete contacts s
  | .slotTimerExpiry => Sys2Proof.Machine.execSlotTimerExpiry s
  | .idleLeadExpiry => Sys2Proof.Machine.execIdleLeadExpiry s
  | .load head table index record => Sys2Proof.Machine.execLoad head table index record s
  | .fetch head table index => Sys2Proof.Machine.execFetch head table index s
  | .enterRun head => Sys2Proof.Machine.execEnterRun head s
  | .validationComplete time => Sys2Proof.Machine.execValidationComplete time s
  | .resume head => Sys2Proof.Machine.execResume head s
  | .enterConfig head => Sys2Proof.Machine.execEnterConfig head s
  | .enterSafe head => Sys2Proof.Machine.execEnterSafe head s
  | .trip time => Sys2Proof.Machine.execTrip time s
  | .verifyAll head => Sys2Proof.Machine.execVerifyAll head s
  | .verifyBank head bank => Sys2Proof.Machine.execVerifyBank head bank s
  | .readClearEvents head mask => Sys2Proof.Machine.execReadClearEvents head mask s
  | .clearCounters head => Sys2Proof.Machine.execClearCounters head s
  | .setMarker head value => Sys2Proof.Machine.execSetMarker head value s
  | .softReset head => Sys2Proof.Machine.execSoftReset head s
  | .presentedSignalChange time line level => Sys2Proof.Machine.execPresentedSignalChange time line level s

end Sys2Proof.Machine
end

