-- ==== Sys2Proof/Safety.lean ====
section
/-! DEFINITION. The terms in which claims about the part are made: when it runs and when an event is complete, what the
consequences of an event leave alone, the invariants of a safe run, and which commands come in due time. -/

namespace Sys2Proof.Machine

/-! ## Standing conditions -/

/-- The part runs: RESET_N is not asserted, and the first event after the last reset has passed (R178). -/
def State.running (s : State) : Prop := s.inReset = false ∧ s.evu.readDue = none

/-- Every consequence of the last event has been drawn. -/
def State.complete (s : State) : Prop := react s = none

/-- No frame of the Forward Queue waits to be examined: each is released or in the Step Engine's charge (R139). -/
def State.headQuiet (s : State) : Prop := ∀ x ∈ s.fwq.queue, x.status ≠ .waiting

/-- The Management Agent is busy with a request that stays in service (R139, R151). -/
def State.agentBusy (s : State) : Prop := (∃ r, s.mga = .serving r) ∧ s.rtq.responseHeld = false

/-- The report outbox stays occupied: the Return Queue has no room above the hold margin (R61, R145). -/
def State.reportBarred (s : State) : Prop :=
  s.rtq.report ≠ none ∧ 24 ≤ s.rtq.queue.length + marginEntries s.lnk.margin

/-- A step frame at the head is not taken in RUN, whatever an event brings about after its own effect: the supply latch list is not
empty; the engine is in CHECKING; it holds a step, and the frame carries no PREEMPT or the report outbox stays occupied; or it is in
REPORT_WAIT, its report not built yet or not placeable (R49, R61). -/
def State.stepBarred (s : State) (f : Frame) : Prop :=
  s.csd.latch ≠ [] ∨ s.ste.st = .checking ∨ (s.ste.holdsStep = true ∧ (f.preempt = false ∨ s.reportBarred)) ∨
    (s.ste.st = .reportWait ∧ (s.ste.report = none ∨ s.reportBarred))

/-- In RUN a step frame waits at the head of an addressed part, and R49 keeps it waiting. -/
def State.stepWaits (s : State) : Prop :=
  s.mdc.mode = .run ∧ s.lnk.transparent = false ∧
    ∃ x l, s.fwq.queue = x :: l ∧ x.status = .waiting ∧ x.frame.isStep = true ∧ s.stepBarred x.frame

/-- The head of the Forward Queue keeps every frame behind it from being examined, and is not examined itself: the agent is busy; or
the head is in the Step Engine's charge (R139), or released with Port B's link UP, so that it leaves at the end of its transmission
alone (R130); or it is a step frame that R49 keeps waiting. -/
def State.frontBlocked (s : State) : Prop :=
  s.agentBusy ∨ (∃ x l, s.fwq.queue = x :: l ∧ (x.status = .held ∨ (x.status = .released ∧ s.lnk.b.link = .up))) ∨ s.stepWaits

/-- No frame can be examined while the consequences of an event are drawn: none waits to be, or the front is blocked. -/
def State.frontStill (s : State) : Prop := s.headQuiet ∨ s.frontBlocked

/-- The front is still and stays so if the agent becomes idle and the step in progress ends: no frame waits to be examined, or, with
Port B's link UP, the head is released or will be. -/
def State.headFirm (s : State) : Prop :=
  s.headQuiet ∨ (s.lnk.b.link = .up ∧ ∃ x l, s.fwq.queue = x :: l ∧ x.status ≠ .waiting)

/-- The front is still and stays so if the step in progress ends. -/
def State.frontFirm (s : State) : Prop := s.headFirm ∨ s.agentBusy

/-- The front stays still through the completion of a verify of a kind: a command's completion may free the agent, a recovery's may
empty the supply latch list, and a mismatch ends ENTRY (R49, R87, R104, R116). -/
def State.frontAtVerify (s : State) (k : VerifyKind) : Prop :=
  s.headFirm ∨
    (s.frontStill ∧ (k = .command → s.stepWaits) ∧ k ≠ .recovery ∧ ∀ o q, s.mdc.mode ≠ .entry o q)

/-- A request that arrives now reaches the agent at once and is addressed to it: Port A's link is UP, the part is an addressed
node, the agent is idle and holds no acknowledgement, nothing stands before the request, and no consequence is due at that
instant (R131, R139, R166). -/
structure Reaches (s : State) (h : ReqHead) : Prop where
  running : s.running
  complete : (s.advance h.time).complete
  link : s.lnk.a.link = .up
  addressed : s.lnk.transparent = false
  idle : s.mga = .idle
  unheld : s.rtq.responseHeld = false
  empty : s.fwq.queue = []
  destination : h.dest = s.lnk.addrByte ∨ h.dest = broadcast

/-- A frame that arrives on Port A now is examined at once: the link is UP, the agent is idle, nothing stands before the
frame, and no consequence is due at that instant (R137, R139). -/
structure FrontOpen (s : State) (t : Nat) : Prop where
  running : s.running
  complete : (s.advance t).complete
  link : s.lnk.a.link = .up
  idle : s.mga = .idle
  empty : s.fwq.queue = []

/-- A frame that the agent has built is on its way: it waits for the RESPONSE outbox, stands in it, or has entered the Return
Queue (R145, R151). -/
def State.answered (s : State) (f : Frame) : Prop :=
  s.mga = .answerWait f ∨ s.rtq.response = some f ∨ { frame := f, own := true } ∈ s.rtq.queue

/-- A report of the Step Engine is on its way: pending, in the REPORT outbox, or in the Return Queue (R61, R145). -/
def State.reported (s : State) (f : Frame) : Prop :=
  s.ste.report = some f ∨ s.rtq.report = some f ∨ { frame := f, own := true } ∈ s.rtq.queue

/-- A STEP_ECHO is on its way: in the ECHO outbox or in the Return Queue (R142, R145). -/
def State.echoed (s : State) (f : Frame) : Prop :=
  s.rtq.echo = some f ∨ { frame := f, own := true } ∈ s.rtq.queue

/-- The Step Engine is in IDLE and has discarded the step's identity, snapshot and changing set; in RUN and SAFE the idle-lead timer has
started at this instant, its mark clear, or, with an idle lead of 0, has expired at once (R58, R61, R99). -/
structure State.Rests (u : State) : Prop where
  state : u.ste.st = .idle
  discarded : u.ste.ident = none ∧ u.ste.snapshot = none ∧ ∀ i : Elem, u.ste.changing[i] = none
  timed : u.mdc.mode.isRunOrSafe = true → u.tbs.runtime.idleLead ≠ 0 →
    u.vfu.idleLead = some (u.now + u.tbs.runtime.idleLead * 1000) ∧ u.vfu.idleMark = false
  expired : u.mdc.mode.isRunOrSafe = true → u.tbs.runtime.idleLead = 0 → u.vfu.idleLead = none ∧ u.vfu.idleMark = true

/-- The step's identity, snapshot, changing set and landings, its pending report, and the idle-lead timer with its mark stand. -/
structure State.StepStands (e u : State) : Prop where
  step : u.ste.ident = e.ste.ident ∧ u.ste.snapshot = e.ste.snapshot ∧ u.ste.changing = e.ste.changing ∧
    u.ste.landed = e.ste.landed ∧ u.ste.report = e.ste.report
  idleTimer : u.vfu.idleLead = e.vfu.idleLead ∧ u.vfu.idleMark = e.vfu.idleMark

/-! ## What the consequences of an event leave alone -/

/-- The chain side, from the state `e` right after an event's own effect to the state `t` when its consequences are drawn:
frames leave the Forward Queue only at the chain end and only join the Return Queue, what is on its way stays on its way,
what is on a fibre stays there, and links, straps, received marks and the counters but end discards stand. -/
structure KeptChain (e t : State) : Prop where
  pending : t.pending = e.pending
  now : t.now = e.now
  inReset : t.inReset = e.inReset
  straps : t.lnk.addr = e.lnk.addr ∧ t.lnk.margin = e.lnk.margin ∧ t.lnk.sense = e.lnk.sense
  links : t.lnk.a.link = e.lnk.a.link ∧ t.lnk.b.link = e.lnk.b.link
  marks : t.lnk.a.received = e.lnk.a.received ∧ t.lnk.b.received = e.lnk.b.received
  checks : t.lnk.a.checkErrors = e.lnk.a.checkErrors ∧ t.lnk.b.checkErrors = e.lnk.b.checkErrors
  drops : t.lnk.fwdDrops = e.lnk.fwdDrops ∧ t.lnk.retDrops = e.lnk.retDrops ∧ t.lnk.urgentDrops = e.lnk.urgentDrops
  wires : e.lnk.a.wire <:+ t.lnk.a.wire ∧ e.lnk.b.wire <:+ t.lnk.b.wire
  dark : (e.lnk.a.link = .down → t.lnk.a.tx = e.lnk.a.tx) ∧ (e.lnk.b.link = .down → t.lnk.b.tx = e.lnk.b.tx)
  sending : (∀ x, e.lnk.a.tx = some x → t.lnk.a.tx = some x) ∧ (∀ x, e.lnk.b.tx = some x → t.lnk.b.tx = some x)
  slot : t.fwq.slot = e.fwq.slot
  forward : t.fwq.queue <:+ e.fwq.queue
  forwardKept : (e.lnk.b.link = .up ∨ ∀ x ∈ e.fwq.queue.head?, x.status ≠ .released) →
    t.fwq.queue = e.fwq.queue ∧ t.lnk.endDiscards = e.lnk.endDiscards
  back : e.rtq.queue <+: t.rtq.queue
  barred : e.reportBarred → t.rtq.report = e.rtq.report ∧ (e.ste.st = .reportWait → t.ste.st = .reportWait)
  unheld : e.rtq.responseHeld = false → t.rtq.responseHeld = false
  answers : e.rtq.responseHeld = false → ∀ f, e.answered f → t.answered f
  reports : ∀ f, e.reported f → t.reported f
  echoes : ∀ f, e.echoed f → t.echoed f
  agentIdle : e.mga = .idle → t.mga = .idle
  held : e.rtq.responseHeld = true → e.csd.anyInFlight = true → ∀ r, e.mga = .serving r →
    t.rtq.responseHeld = true ∧ t.rtq.response = e.rtq.response ∧ t.mga = e.mga ∧ t.csd.anyInFlight = true
  agentServing : e.rtq.responseHeld = false → ∀ r, e.mga = .serving r → t.mga = .serving r

/-- The matrix side, from the state `e` right after an event's own effect to the state `t` when its consequences are drawn:
pending elements may launch, a verify may start, a safe drive may complete, a report may be placed, and an evaluation may
begin afresh; nothing else changes. Where no safe drive is complete, entries leave the pending set by launching alone. The placing of
a pending report, and that alone, takes the engine from REPORT_WAIT to IDLE (R61). -/
structure KeptMatrix (e t : State) : Prop where
  clock : t.now = e.now
  tables : t.tbs = { e.tbs with wear := t.tbs.wear }
  lines : t.axu = e.axu
  route : t.rev.route = e.rev.route
  evaluating : t.rev.evaluation.isSome = e.rev.evaluation.isSome
  engine : t.ste.st = e.ste.st ∨ (e.ste.st = .reportWait ∧ t.ste.st = .idle)
  result : t.ste.outcome = e.ste.outcome ∧ t.ste.elapsed = e.ste.elapsed ∧ t.ste.takeAt = e.ste.takeAt
  timers : t.ste.grace = e.ste.grace ∧ t.ste.dwell = e.ste.dwell
  marked : t.ste.settledMark = e.ste.settledMark ∧ t.ste.routes = e.ste.routes ∧ t.ste.serial = e.ste.serial
  step : e.ste.st ≠ .reportWait ∨ t.ste.st = .reportWait → e.StepStands t
  placed : e.ste.st = .reportWait → t.ste.st = .idle →
    t.Rests ∧ t.ste.report = none ∧ e.ste.report ≠ none
  positions : t.csd.recorded = e.csd.recorded
  recovery : t.csd.recoveryUntil = e.csd.recoveryUntil ∧ t.csd.latch = e.csd.latch ∧
    t.csd.recoveryActive = e.csd.recoveryActive
  lockouts : t.csd.lockoutOver = e.csd.lockoutOver
  supply : t.csd.supply = e.csd.supply
  handed : safeComplete e = false →
    safeComplete t = false ∧ t.mdc = e.mdc ∧
      ∀ i : Elem, t.csd.pending[i] = e.csd.pending[i] ∨
        (t.csd.pending[i] = none ∧ e.csd.pulses[i] = none ∧
          ∃ p, t.csd.pulses[i] = some p ∧ e.csd.pending[i] = some p.target)
  flights : ∀ (i : Elem) (p : Pulse), e.csd.pulses[i] = some p → t.csd.pulses[i] = some p
  launches : ∀ (i : Elem) (p : Pulse), t.csd.pulses[i] = some p → e.csd.pulses[i] ≠ some p →
    e.csd.pulses[i] = none ∧ e.csd.supply = .good ∧ p.launchAt = e.now ∧ p.phase = .driving ∧
      p.origin = e.csd.recorded[i]
  worn : ∀ i : Elem, t.csd.pulses[i] = e.csd.pulses[i] →
    t.tbs.wear[i] = e.tbs.wear[i] ∧ t.csd.lastLaunch[i] = e.csd.lastLaunch[i]
  debt : t.vfu.debt = e.vfu.debt ∧ t.vfu.round = e.vfu.round
  slot : t.vfu.slot = e.vfu.slot
  demands : t.vfu.requests = e.vfu.requests ∧ t.vfu.inHand = e.vfu.inHand
  verifying : ∀ b k due, e.vfu.activity = .verifying b k due → t.vfu.activity = .verifying b k due
  mode : t.mdc.mode = e.mdc.mode ∨ (e.mdc.mode = .safe .driving ∧ t.mdc.mode = .safe .held)
  requests : t.mdc.trips = e.mdc.trips ∧ t.mdc.validating = e.mdc.validating
  flags : ∀ i : Nat, e.evu.latched.getLsbD i = true → t.evu.latched.getLsbD i = true
  levels : t.evu.readDue = e.evu.readDue

/-- The matrix side after an event that a launch pass follows, from the state `e` right after the event's own effect (R73): where no
evaluation restarts and the Verify Unit takes nothing, nothing comes before the pass. -/
def KeptAfterPass (e u : State) : Prop :=
  KeptMatrix e u ∧ (restartEvaluation e = none → verifyAction e = none → KeptMatrix (launchPass e) u)

/-- What becomes of the Step Engine's evaluation, from the state `s` before an event to the state `u` after it: it goes on where every
possible position is in its snapshot, and otherwise has begun afresh at that instant, from the position table as it now stands and
the step's targets (R16, R23). -/
def EvaluationFollows (s u : State) : Prop :=
  ∀ v, s.rev.evaluation = some v →
    ((∀ (i : Elem) (q : Pos), q ∈ possible u.tbs u.csd i → q ∈ v.sets[i]) → u.rev.evaluation = some v) ∧
    ((∃ (i : Elem) (q : Pos), q ∈ possible u.tbs u.csd i ∧ q ∉ v.sets[i]) →
      ∃ w, u.rev.evaluation = some w ∧ w.since = u.now ∧ w.walk = walkFrom 0 ∧
        ∀ (i : Elem) (q : Pos), q ∈ w.sets[i] ↔ (q ∈ possible u.tbs u.csd i ∨ s.ste.changing[i] = some q))

/-- With no launch pass due and no safe drive just completed, the consequences of an event move no element, change no table,
latch no flag and leave the mode alone. -/
structure Still (e t : State) : Prop where
  marks : t.ste.hot = e.ste.hot ∧ t.ste.wearFlag = e.ste.wearFlag
  coil : t.csd = e.csd
  tables : t.tbs = e.tbs
  events : t.evu = e.evu
  control : t.mdc = e.mdc

/-- What a management request that reached the agent leaves on the chain side: it is gone from the Forward Queue, but for the
copy of a broadcast request that goes on (R140); no frame is lost, and links, straps, received marks, check-error and drop
counters stand. -/
structure Served (s : State) (h : ReqHead) (payload : List Byte) (u : State) : Prop where
  pending : u.pending = s.pending
  now : u.now = max s.now h.time
  straps : u.lnk.addr = s.lnk.addr ∧ u.lnk.margin = s.lnk.margin ∧ u.lnk.sense = s.lnk.sense
  links : u.lnk.a.link = s.lnk.a.link ∧ u.lnk.b.link = s.lnk.b.link
  marks : u.lnk.a.received = s.lnk.a.received ∧ u.lnk.b.received = s.lnk.b.received
  sending : (∀ x, s.lnk.a.tx = some x → u.lnk.a.tx = some x) ∧ (∀ x, s.lnk.b.tx = some x → u.lnk.b.tx = some x)
  slot : u.fwq.slot = s.fwq.slot
  own : h.dest ≠ broadcast → u.fwq.queue = []
  copy : h.dest = broadcast → s.lnk.b.link = .up →
    u.fwq.queue = [{ frame := requestFrame s.lnk h payload, status := .released, own := false }]
  back : s.rtq.queue <+: u.rtq.queue
  reports : ∀ f, s.reported f → u.reported f
  echoes : ∀ f, s.echoed f → u.echoed f

/-- The counters of the Link Interface that a request leaves alone; CLEAR_COUNTERS and a broadcast request's copy at the chain
end change them (R141, R162). -/
structure SameCounters (s u : State) : Prop where
  checks : u.lnk.a.checkErrors = s.lnk.a.checkErrors ∧ u.lnk.b.checkErrors = s.lnk.b.checkErrors
  drops : u.lnk.fwdDrops = s.lnk.fwdDrops ∧ u.lnk.retDrops = s.lnk.retDrops ∧ u.lnk.urgentDrops = s.lnk.urgentDrops

/-- The answer of the agent to a request that reached it is on its way (R151, R155). -/
def State.answers (u s : State) (h : ReqHead) (payload : List Byte) (x : Result) : Prop :=
  u.answered (answerFrame s.lnk { tag := h.tag, payload := payload } x) ∧ ∀ r, u.mga ≠ .serving r

/-- The request is in service: its answer is owed (R151). -/
def State.owes (u : State) (h : ReqHead) (payload : List Byte) : Prop :=
  u.mga = .serving { tag := h.tag, payload := payload }

/-- What becomes of a report built at the state `e`, in REPORT_WAIT, to the state `u`: it is on its way; one that finds the report outbox
empty enters it, and the engine is IDLE; one that finds it occupied stays pending, with the engine in REPORT_WAIT, where the outbox is
not emptied in the same event (R61). -/
structure ReportOffered (e : State) (f : Frame) (u : State) : Prop where
  onItsWay : u.reported f
  placed : e.rtq.report = none → u.Rests ∧ u.ste.report = none
  waits : e.reportBarred → u.ste.st = .reportWait ∧ u.ste.report = some f ∧ u.rtq.report = e.rtq.report ∧
    u.ste.ident = e.ste.ident ∧ u.ste.snapshot = e.ste.snapshot ∧ u.ste.changing = e.ste.changing

/-- What the end of a step leaves: from the state `e` of that instant, with the step not yet ended, to the state `u` (R57 to
R62). -/
structure Ended (e : State) (o : StepOutcome) (u : State) : Prop where
  outcome : u.ste.outcome = some o
  elapsed : u.ste.elapsed = min (e.now - e.ste.takeAt) Config.elapsedCap
  timers : u.ste.grace = none ∧ u.ste.dwell = none
  evaluation : u.rev.evaluation = none
  mark : u.ste.settledMark = (o.isSettled || e.ste.settledMark)
  fault : 3 ≤ o.severity → u.isLatched .stepFault = true
  state : u.ste.st = .idle ∨ u.ste.st = .reportWait
  quiet : ∀ i, e.ste.ident = some i → i.quiet = true →
    u.Rests ∧ u.ste.report = e.ste.report ∧ u.ste.routes = e.ste.routes ∧ u.rev.route = e.rev.route
  unsettled : ∀ i, e.ste.ident = some i → i.quiet = false → o.isSettled = false →
    u.ste.routes = Vector.replicate 8 none ∧
      ReportOffered e (reportFrame e.lnk i.tag i.index o e.ste.hot e.ste.wearFlag
        (min (e.now - e.ste.takeAt) Config.elapsedCap) []) u
  listless : ∀ i p, e.ste.ident = some i → i.quiet = false → o.isSettled = true → e.ste.snapshot = some p → p.report = [] →
    u.ste.routes = Vector.replicate 8 none ∧
      ReportOffered e (reportFrame e.lnk i.tag i.index o e.ste.hot e.ste.wearFlag
        (min (e.now - e.ste.takeAt) Config.elapsedCap) []) u
  requested : ∀ i p, e.ste.ident = some i → i.quiet = false → o.isSettled = true → e.ste.snapshot = some p → p.report ≠ [] →
    (e.ste.report = none → u.ste.st = .reportWait ∧ u.ste.ident = e.ste.ident ∧ u.ste.snapshot = e.ste.snapshot ∧
      u.ste.changing = e.ste.changing) ∧
      u.rev.route = some { since := e.now, results := p.report.map (routeEntry e.tbs e.csd i.freq) }
  released : ∀ x rest, e.fwq.queue = x :: rest → x.status = .held → e.lnk.b.link = .up →
    u.fwq.queue = { frame := x.frame.stamp o.severity, status := .released, own := true } :: rest
  echo : ∀ x rest, e.fwq.queue = x :: rest → x.status = .held → e.lnk.b.link = .down → x.frame.isStep = true →
    e.lnk.transparent = false → e.rtq.echo = none →
      u.echoed (echoOf e.lnk (x.frame.stamp o.severity)) ∧ u.fwq.queue <:+ rest

/-- What a take on a present record leaves: from the state `e` of that instant to the state `u` (R50, R51). -/
structure Taken (e : State) (f : Frame) (p : PathRec) (u : State) : Prop where
  state : u.ste.st = .checking
  identity : u.ste.ident =
    some { tag := f.tag, index := f.stepIndex, quiet := f.quiet, freq := f.freq, status := f.status }
  snapshot : u.ste.snapshot = some p
  changing : ∀ i : Elem, u.ste.changing[i] =
    if p.mask.getLsbD (bankOf i).val = true ∧ e.csd.destination i ≠ some p.targets[i] then some p.targets[i] else none
  takeAt : u.ste.takeAt = e.now
  flags : u.ste.hot = false ∧ u.ste.wearFlag = false
  outcome : u.ste.outcome = none ∧ u.ste.settledMark = false
  serial : u.ste.serial = e.ste.serial + 1
  idleTimer : u.vfu.idleLead = none ∧ u.vfu.idleMark = false
  evaluation : ∃ v, u.rev.evaluation = some v ∧
    ∀ (i : Elem) (q : Pos), q ∈ v.sets[i] ↔ (q ∈ possible e.tbs e.csd i ∨ u.ste.changing[i] = some q)
  held : u.fwq.queue = [{ frame := f, status := .held, own := false }]

/-- What the examination of a waiting head leaves, with Port B's link UP: from the state `s` before the event that brings it about, with
the head `y` and the frames `rest` behind it, to the state `u` (R48 to R51, R139, R140). -/
structure Examined (s : State) (y : FwdEntry) (rest : List FwdEntry) (u : State) : Prop where
  other : y.frame.isStep = false →
    (y.frame.kind ≠ kindRequest ∨ (y.frame.dest ≠ s.lnk.addrByte ∧ y.frame.dest ≠ broadcast) ∨ s.lnk.transparent = true) →
    u.fwq.queue = { y with status := .released } :: rest
  skipped : y.frame.isStep = true → (s.mdc.mode ≠ .run ∨ s.lnk.transparent = true) →
    u.fwq.queue = { frame := y.frame.stamp 2, status := .released, own := true } :: rest
  taken : ∀ p, y.frame.isStep = true → s.mdc.mode = .run → s.lnk.transparent = false → s.ste.st = .idle → s.csd.latch = [] →
    s.tbs.paths[y.frame.stepIndex.toNat]'(y.frame.stepIndex.isLt) = some p →
    u.fwq.queue = { y with status := .held } :: rest ∧ u.ste.st = .checking ∧ u.ste.snapshot = some p ∧
      u.ste.takeAt = u.now ∧ u.ste.ident = some {
        tag := y.frame.tag, index := y.frame.stepIndex, quiet := y.frame.quiet, freq := y.frame.freq, status := y.frame.status }
  waits : y.frame.isStep = true → s.mdc.mode = .run → s.lnk.transparent = false →
    (s.csd.latch ≠ [] ∨ s.ste.st = .checking ∨ (s.ste.holdsStep = true ∧ y.frame.preempt = false)) → u.fwq.queue = y :: rest
  handed : y.frame.kind = kindRequest → y.frame.dest = s.lnk.addrByte → s.lnk.transparent = false → rest = [] →
    u.fwq.queue = [] ∧ (u.mga = .serving { tag := y.frame.tag, payload := y.frame.payload } ∨
      ∃ r, u.answered (answerFrame s.lnk { tag := y.frame.tag, payload := y.frame.payload } r))
  toAll : y.frame.kind = kindRequest → y.frame.dest = broadcast → s.lnk.transparent = false → rest = [] →
    asksSoftReset y.frame = false →
    u.fwq.queue = [{ y with status := .released }] ∧
      (u.mga = .serving { tag := y.frame.tag, payload := y.frame.payload } ∨
        ∃ r, u.answered (answerFrame s.lnk { tag := y.frame.tag, payload := y.frame.payload } r))

/-- A claim of a kind has been released, from the state `e` before to the state `u` after: the Verify Unit is FREE where nothing else
asks for a verify at once, and in any case neither claims nor verifies a bank for that kind (R92, R100). -/
structure ClaimReleased (k : VerifyKind) (e u : State) : Prop where
  gone : ∀ b, u.vfu.activity ≠ .claimed b k ∧ ∀ due, u.vfu.activity ≠ .verifying b k due
  free : u.vfu.inHand = none → u.vfu.requests = [] →
    (u.mdc.mode = .config ∨ (e.vfu.debt ≤ 0 ∧ e.vfu.idleMark = false ∧ e.tbs.runtime.idleLead ≠ 0)) → u.vfu.activity = .free

/-- What the entry of SAFE leaves: from the state `e` of that instant to the state `u` (R65, R88, R102, R103, R106, R119, R120). The mode
is SAFE_HELD at once where the safe drive is empty and nothing is in flight (R121). A claim made for the recovery is released; a
debt-forced claim of RUN is kept, and its bank verified once it is idle; a verify in progress goes on. -/
structure SafeEntered (e u : State) : Prop where
  mode : u.mdc.mode = .safe .driving ∨
    (u.mdc.mode = .safe .held ∧ (∀ i : Elem, (safeTargets e)[i] = none) ∧ e.csd.anyInFlight = false)
  flagged : u.isLatched .safeEntered = true
  latch : u.csd.latch = [] ∧ u.csd.recoveryActive = false
  requests : u.vfu.requests = []
  released : ∀ b, e.vfu.activity = .claimed b .recovery → ClaimReleased .recovery e u
  claimKept : ∀ b, e.mdc.mode = .run → e.vfu.activity = .claimed b .debtForced →
    u.vfu.activity =
      if e.csd.bankIdle b e.now = true then .verifying b .debtForced (e.now + Config.verifyTime) else .claimed b .debtForced
  verifying : ∀ b k due, e.vfu.activity = .verifying b k due → ∃ x, u.vfu.activity = .verifying b x due
  positions : u.csd.recorded = e.csd.recorded
  abandoned : e.ste.holdsStep = true → Ended e .abandonedSafe u
  driven : ∀ n p (i : Elem), e.tbs.core.safeIndex = some n → e.tbs.paths[n] = some p →
    e.csd.destination i ≠ some p.targets[i] →
      u.mdc.outstanding[i] = some p.targets[i] ∧
        ((e.tbs.classOf i).isSome →
          u.csd.pending[i] = some p.targets[i] ∨ ∃ x, u.csd.pulses[i] = some x ∧ x.target = p.targets[i])

/-- Nothing is about to launch: no launch pass is due, and no safe drive has just been completed. -/
def State.calm (s : State) : Prop := s.csd.passDue = false ∧ safeComplete s = false

/-- What the reading of the level conditions after a reset leaves, from the state `s` before it to the state `u`: each condition that is
present latches its flag and requests its trip where that is enabled, VCOIL_LOW's before DOOR's; after power-on and RESET_N an
unmasked POWER_UP, taken as just latched, joins a waiting ALERT frame or builds one (R171, R172, R174, R178). -/
structure LevelsRead (s : State) (k : ResetKind) (u : State) : Prop where
  read : u.evu.readDue = none
  low : s.csd.supply = .low → u.isLatched .vcoilLow = true
  door : s.doorIn = true → u.isLatched .door = true
  trips : u.mdc.trips = s.mdc.trips
    ++ (if s.csd.supply = .low ∧ s.tbs.runtime.tripMask.getLsbD 6 = true then [.vcoilLow] else [])
    ++ (if s.doorIn = true ∧ s.tbs.runtime.tripMask.getLsbD 7 = true then [.door] else [])
  others : s.calm → u.csd = s.csd ∧ u.tbs = s.tbs ∧ u.mdc.mode = s.mdc.mode
  powerUp : s.calm → k = .hard → s.lnk.transparent = false →
    s.tbs.runtime.alertMask.getLsbD Flag.powerUp.bit = false →
    let low := if s.csd.supply = .low ∧ s.isLatched .vcoilLow = false then Flag.vcoilLow.set else 0
    let door := if s.doorIn = true ∧ s.isLatched .door = false then Flag.door.set else 0
    ∃ a : AlertFrame, (u.rtq.alert = some a ∨ { frame := alertFrame s.lnk a, own := true } ∈ u.rtq.queue) ∧
      a.flags = s.evu.latched ||| low ||| door ∧ a.mode = s.mdc.mode.shown ∧ a.raised.getLsbD Flag.powerUp.bit = true ∧
      (s.rtq.alert = none → a.tag = s.evu.sequence + 1 ∧ u.evu.sequence = s.evu.sequence + 1 ∧
        (s.tbs.runtime.alertMask.getLsbD Flag.vcoilLow.bit = false → s.tbs.runtime.alertMask.getLsbD Flag.door.bit = false →
          a.raised = Flag.powerUp.set ||| low ||| door)) ∧
      ∀ b, s.rtq.alert = some b → a.tag = b.tag ∧ u.evu.sequence = s.evu.sequence ∧
        a.raised = b.raised ||| Flag.powerUp.set ||| low ||| door

/-- A step frame waits at the head of an addressed part in RUN, with the agent idle, Port B's link UP, and no consequence of an event due
at the instant `t`: the engine does not take the frame as things stand (R49). -/
structure StepBehind (s : State) (t : Nat) (y : FwdEntry) (rest : List FwdEntry) : Prop where
  running : s.running
  complete : (s.advance t).complete
  mode : s.mdc.mode = .run
  addressed : s.lnk.transparent = false
  link : s.lnk.b.link = .up
  idle : s.mga = .idle
  head : s.fwq.queue = y :: rest
  waiting : y.status = .waiting
  step : y.frame.isStep = true

/-! ## Invariants of a safe run -/

/-- The bank has at most one pulse driving. -/
def Csd.oneDriver (c : Csd) (b : Bank) : Prop :=
  ∀ e f : Elem, bankOf e = b → bankOf f = b → c.isDriving e = true → c.isDriving f = true → e = f

/-- R75: the driving pulses fit the coil budget, no bank has more than one pulse driving, and no pulse is in flight in a bank
that is being verified. -/
structure CoilSafe (s : State) : Prop where
  budget : s.csd.charged ≤ s.tbs.core.budget
  drivers : ∀ b, s.csd.oneDriver b
  verified : ∀ b k due, s.vfu.activity = .verifying b k due → ∀ e, bankOf e = b → s.csd.inTransit e = false

/-- R97: the verify debt lies between −3 and +5. -/
def DebtInRange (s : State) : Prop := -3 ≤ s.vfu.debt ∧ s.vfu.debt ≤ 5

/-- R136: neither queue holds more frames than its capacity. -/
def QueuesBounded (s : State) : Prop :=
  s.fwq.queue.length ≤ Config.fwdCapacity ∧ s.rtq.queue.length ≤ Config.retCapacity

/-- R149, R177: no 16-bit counter passes 65,535. -/
def CountersBounded (s : State) : Prop :=
  s.lnk.a.checkErrors ≤ Config.counterCap ∧ s.lnk.b.checkErrors ≤ Config.counterCap ∧
    s.lnk.fwdDrops ≤ Config.counterCap ∧ s.lnk.retDrops ≤ Config.counterCap ∧
    s.lnk.urgentDrops ≤ Config.counterCap ∧ s.lnk.endDiscards ≤ Config.counterCap ∧ s.evu.hotCount ≤ Config.counterCap

/-- R79, R80: no wear count passes 16,777,215. -/
def WearBounded (s : State) : Prop := ∀ e : Elem, s.tbs.wear[e] ≤ Config.wearCap

/-- R26: the frequencies of a grid that is present are above 0 and strictly ascending. -/
def GridAscending (s : State) : Prop :=
  ∀ g, s.tbs.grid = some g → 0 < g[0] ∧ ∀ i j : Fin 8, i < j → g[i] < g[j]

/-- R9: the recorded position of a NOT_FITTED element is 0, and it is not in transit (R5, R67). -/
def UnfittedStill (s : State) : Prop :=
  ∀ e : Elem, s.tbs.elements[e] = .notFitted → s.csd.recorded[e] = some 0 ∧ s.csd.inTransit e = false

/-- What LOAD asks of every present LINK record: its two nodes differ, and a throw node has a throw number from 1 on (R7). -/
def LinksSound (t : Tbs) : Prop :=
  ∀ (i : Fin 160) (l : LinkRec), t.links[i] = some l → l.a ≠ l.b ∧ ∀ e : Elem, l.a ≠ .throw e 0 ∧ l.b ≠ .throw e 0

/-- R148: the marks last sent agree with the free entries of the queues: GO says that more are free than the hold margin, PAUSE that
fewer are free than twice the margin. -/
def MarksAgree (s : State) : Prop :=
  let m := marginEntries s.lnk.margin
  (s.lnk.sentFwd = .go → m < s.fwdFree) ∧ (s.lnk.sentFwd = .pause → s.fwdFree < 2 * m) ∧
    (s.lnk.sentRet = .go → m < s.retFree) ∧ (s.lnk.sentRet = .pause → s.retFree < 2 * m)

/-- The invariants of a safe run, together. -/
structure SafeRun (s : State) : Prop where
  coil : CoilSafe s
  debt : DebtInRange s
  queues : QueuesBounded s
  counters : CountersBounded s
  wear : WearBounded s
  grid : GridAscending s
  links : LinksSound s.tbs
  unfitted : UnfittedStill s
  marks : MarksAgree s

/-! ## Records as LOAD and FETCH carry them -/

/-- The encoding of the record that a LOAD carries, where its fields are sound; none for a read-only table (section 12.6). -/
def encodedLoad (t : TableId) (i : Nat) (r : List Byte) (s : State) : Option (List Byte) :=
  match t with
  | .cls => (decodeClass r).toOption.map encodeClass
  | .element => (decodeElement r).toOption.map encodeElement
  | .link => (decodeLink r).toOption.map encodeLink
  | .interlock => (decodeInterlock r).toOption.map encodeInterlock
  | .core => (decodeCore r).toOption.map encodeCore
  | .aux => (decodeAux s.axu.records (Fin.ofNat 4 i) r).toOption.map encodeAux
  | .eloss => (decodeRow r 0 0).toOption.map encodeRow
  | .tcorr => (decodeRow r 0 0).toOption.map encodeRow
  | .grid => (decodeGrid r).toOption.map encodeGrid
  | .runtime => (decodeRuntime r).toOption.map encodeRuntime
  | .wear => (decodeWear r).toOption.map (beBytes 4)
  | .path => (decodePath s.tbs r).toOption.map encodePath
  | .position => none
  | .status => none
  | .route => none

/-! ## Requests as frames -/

/-- The head and the payload of the MGMT_REQ frame that a management command is (R152, section 12.5); none for the other
commands. -/
def requestOf (i : Instr) : Option (ReqHead × List Byte) :=
  match i with
  | .powerOn _ _ => none
  | .resetN _ => none
  | .resetNRelease _ _ => none
  | .levelConditionsRead _ => none
  | .linkUp _ _ => none
  | .linkDown _ _ => none
  | .frameReceived _ _ _ => none
  | .flowMarkReceived _ _ _ => none
  | .transmissionEnd _ _ => none
  | .spanVerdict _ => none
  | .graceTimerExpiry => none
  | .dwellTimerExpiry => none
  | .routeRequestComplete _ => none
  | .pulseEnd _ => none
  | .pulseLand _ => none
  | .bankRecoveryReached _ => none
  | .lockoutElapsed _ => none
  | .vcoilLow _ => none
  | .supplyReturn _ => none
  | .verifyComplete _ => none
  | .slotTimerExpiry => none
  | .idleLeadExpiry => none
  | .load h t i r => some (h, [opLoad, t] ++ beBytes 2 i.toNat ++ r)
  | .fetch h t i => some (h, [opFetch, t] ++ beBytes 2 i.toNat)
  | .enterRun h => some (h, commandPayload .enterRun [])
  | .validationComplete _ => none
  | .resume h => some (h, commandPayload .resume [])
  | .enterConfig h => some (h, commandPayload .enterConfig [])
  | .enterSafe h => some (h, commandPayload .enterSafe [])
  | .trip _ => none
  | .verifyAll h => some (h, commandPayload .verifyAll [])
  | .verifyBank h b => some (h, commandPayload .verifyBank [b])
  | .readClearEvents h m => some (h, commandPayload .readClearEvents (beBytes 2 m.toNat))
  | .clearCounters h => some (h, commandPayload .clearCounters [])
  | .setMarker h v => some (h, commandPayload .setMarker (beBytes 4 v.toNat))
  | .softReset h => some (h, commandPayload .softReset [])
  | .presentedSignalChange _ _ _ => none

/-! ## Reset values -/

/-- Every block at the values that its own rule gives after power-on and after RESET_N, but for what the pins give and for the latched
set (R4, R5, R7, R9, R22, R24, R26, R28–R30, R40, R46, R62, R67, R68, R80, R90, R107, R108, R150, R151, R157, R158, R164, R178,
R185). -/
structure AtReset (s : State) : Prop where
  receivedMarks : s.lnk.a.received = .go ∧ s.lnk.b.received = .go
  sentMarks : s.lnk.sentFwd = .go ∧ s.lnk.sentRet = .go
  transmitters : s.lnk.a.tx = none ∧ s.lnk.b.tx = none
  checkErrors : s.lnk.a.checkErrors = 0 ∧ s.lnk.b.checkErrors = 0
  drops : s.lnk.fwdDrops = 0 ∧ s.lnk.retDrops = 0 ∧ s.lnk.urgentDrops = 0 ∧ s.lnk.endDiscards = 0
  forward : s.fwq.queue = [] ∧ s.fwq.slot = none
  back : s.rtq.queue = []
  outboxes : s.rtq.alert = none ∧ s.rtq.response = none ∧ s.rtq.echo = none ∧ s.rtq.report = none
  agent : s.mga = .idle
  classes : ∀ c : Fin 8, s.tbs.classes[c] = none
  elements : ∀ e : Elem, s.tbs.elements[e] = .absent
  linkRecords : ∀ l : Fin 160, s.tbs.links[l] = none
  interlock : ∀ i : Fin 64, s.tbs.interlock[i] = none
  core : s.tbs.core = { budget := 1000, safeIndex := none, slotInterval := 60 }
  elementRows : ∀ (e : Elem) (p : Fin 6), s.tbs.eloss[e][p] = none
  corrections : ∀ t : Fin 32, s.tbs.tcorr[t] = none
  grid : s.tbs.grid = none
  runtime : s.tbs.runtime = { idleLead := 5000, muteGrace := 100, alertMask := 0, tripMask := 0xFF }
  wear : ∀ e : Elem, s.tbs.wear[e] = 0
  paths : ∀ n : Fin 256, s.tbs.paths[n] = none
  marker : s.tbs.marker = 0
  evaluator : s.rev.evaluation = none ∧ s.rev.route = none
  engine : s.ste.st = .idle ∧ s.ste.ident = none ∧ s.ste.snapshot = none ∧ s.ste.grace = none ∧ s.ste.dwell = none ∧
    s.ste.outcome = none ∧ s.ste.report = none ∧ s.ste.settledMark = false ∧ s.ste.hot = false ∧ s.ste.wearFlag = false
  changing : ∀ e : Elem, s.ste.changing[e] = none
  routes : ∀ n : Fin 8, s.ste.routes[n] = none
  positions : ∀ e : Elem, s.csd.recorded[e] = none
  pulses : ∀ e : Elem, s.csd.pulses[e] = none
  pendingSet : ∀ e : Elem, s.csd.pending[e] = none
  drive : s.csd.drive = none
  lastLaunches : ∀ e : Elem, s.csd.lastLaunch[e] = none ∧ s.csd.lockoutOver[e] = none
  recoveries : ∀ b : Bank, s.csd.recoveryUntil[b] = none
  latch : s.csd.latch = [] ∧ s.csd.recoveryActive = false
  verify : s.vfu.activity = .free ∧ s.vfu.debt = 0 ∧ s.vfu.round = 0 ∧ s.vfu.requests = [] ∧ s.vfu.inHand = none
  verifyTimers : s.vfu.slot = none ∧ s.vfu.idleLead = none ∧ s.vfu.idleMark = false
  mode : s.mdc.mode = .config ∧ s.mdc.redrive = false ∧ s.mdc.validating = none ∧ s.mdc.trips = []
  outstanding : ∀ e : Elem, s.mdc.outstanding[e] = none
  events : s.evu.sequence = 0 ∧ s.evu.hotCount = 0
  lines : ∀ i : Fin 4, s.axu.records[i].fn = .unused ∧ s.axu.records[i].polarity = .activeHigh

/-- Every field for which the manual states a value after power-on and after the release of RESET_N, at that value, with what the
pins give (R134, R178, and the rules of `AtReset`). The level conditions are still to be read, in the first event (R178). -/
structure ResetValues (p : Pins) (s : State) : Prop where
  blocks : AtReset s
  released : s.inReset = false
  straps : s.lnk.addr = p.addr ∧ s.lnk.margin = p.margin ∧ s.lnk.sense = p.sense
  links : s.lnk.a.link = p.linkA ∧ s.lnk.b.link = p.linkB
  supply : s.csd.supply = p.supply
  levels : s.axu.levels = p.levels
  latched : s.evu.latched = Flag.powerUp.set
  reading : s.evu.readDue = some .hard

/-! ## Commands in due time (assumption log 2) -/

/-- The instants at which the events that the part itself brings about fall due, or by which they must have come. -/
def deadlines (s : State) : List Nat :=
  (s.rev.evaluation.map (fun v => v.since + Config.evaluationBound)).toList
    ++ (s.rev.route.map (fun r => r.since + Config.routeBound)).toList
    ++ (s.mdc.validating.map (· + Config.validationBound)).toList
    ++ s.ste.grace.toList ++ s.ste.dwell.toList ++ s.vfu.slot.toList ++ s.vfu.idleLead.toList
    ++ (match s.vfu.activity with | .verifying _ _ due => [due] | _ => [])
    ++ (if s.mdc.trips = [] then [] else [s.now])
    ++ s.csd.pulses.toList.filterMap (fun p => p.map (fun p => if p.phase = .driving then p.endAt else p.landAt))
    ++ s.csd.recoveryUntil.toList.filterMap (fun t => t.bind (fun t => if s.now < t then some t else none))
    ++ allElems.filterMap (fun e =>
      match s.csd.pending[e], s.tbs.classOf e, s.csd.lastLaunch[e] with
      | some _, some c, some t => if lockoutPassed s e c then none else some (t + c.lockout)
      | _, _, _ => none)

/-- An event at an instant passes over no other that is due. -/
def State.timely (s : State) (t : Nat) : Bool := s.now ≤ t && (deadlines s).all (t ≤ ·)

end Sys2Proof.Machine
end

