-- ==== Sys2Proof/WellFormed.lean ====
section
/-! DEFINITION. Which commands are well formed: the operand ranges that the operand types do not already
fix. `exec` answers on every command; these checks say which ones the chain or the contacts can present. -/

namespace Sys2Proof

/-- The addresses of a request head are node addresses, 0–63 (R131). -/
def ReqHead.ok (h : ReqHead) : Bool := h.dest.toNat ≤ 63 && h.src.toNat ≤ 63

/-- A LOAD carries at most the record bytes that fit a payload after its four leading bytes (R131, 12.5). -/
def recordFits (r : List Byte) : Bool := r.length + 4 ≤ Config.maxPayload

/-- A verify reads the contacts of the eight elements of its bank (R91). -/
def contactsOk (c : List (BitVec 7)) : Bool := c.length == 8

/-- What a receiver counts as one frame holds at least one byte and at most 247 of them, the greatest frame of
chapter 12. A received sequence outside this range is still checked, and fails the length test of R132. -/
def receptionOk (bs : List Byte) : Bool := 0 < bs.length && bs.length ≤ Config.maxPayload + 7

/-- The well-formed commands. -/
def Instr.wellFormed : Instr → Bool
  | .powerOn _ _ => true
  | .resetN _ => true
  | .resetNRelease _ _ => true
  | .levelConditionsRead _ => true
  | .linkUp _ _ => true
  | .linkDown _ _ => true
  | .frameReceived _ _ bs => receptionOk bs
  | .flowMarkReceived _ _ _ => true
  | .transmissionEnd _ _ => true
  | .spanVerdict _ => true
  | .graceTimerExpiry => true
  | .dwellTimerExpiry => true
  | .routeRequestComplete _ => true
  | .pulseEnd _ => true
  | .pulseLand _ => true
  | .bankRecoveryReached _ => true
  | .lockoutElapsed _ => true
  | .vcoilLow _ => true
  | .supplyReturn _ => true
  | .verifyComplete c => contactsOk c
  | .slotTimerExpiry => true
  | .idleLeadExpiry => true
  | .load h _ _ r => h.ok && recordFits r
  | .fetch h _ _ => h.ok
  | .enterRun h => h.ok
  | .validationComplete _ => true
  | .resume h => h.ok
  | .enterConfig h => h.ok
  | .enterSafe h => h.ok
  | .trip _ => true
  | .verifyAll h => h.ok
  | .verifyBank h _ => h.ok
  | .readClearEvents h _ => h.ok
  | .clearCounters h => h.ok
  | .setMarker h _ => h.ok
  | .softReset h => h.ok
  | .presentedSignalChange _ _ _ => true

end Sys2Proof
end

