-- ==== Sys2Proof/Certificates/Slice0/Obligations.lean ====
section
/-! DEFINITION. The statements about the SX-48: what its commands do, and what every step keeps. Where a statement follows one
command, `e` names the state right after the command's own effect and `u` the state when its consequences are drawn;
`KeptChain` and `KeptMatrix` say what the consequences leave alone (Safety.lean). -/

section
open Sys2Proof Sys2Proof.Machine

/-! ## Steps, resets, time -/

/-- One step is the command at the front of the queue, executed on the state with the rest of the queue; with no command waiting
the part idles. That commands wait in a queue is the model's form (assumption logs 1 and 9). -/
def Obligations.StepRunsTheFrontCommand : Prop :=
  (∀ (c : Instr) (rest : List Instr) (s : State), s.pending = c :: rest → step s = exec c { s with pending := rest }) ∧
  ∀ s : State, s.pending = [] → step s = .next s

/-- Every command completes on every state (the model's reading that the part raises no fault and that an event without its object
does nothing: assumption logs 28 and 29), leaves the waiting commands alone (the queue is the model's form: log 1), and time does
not run backward (log 2). -/
def Obligations.CommandsKeepQueueAndClock : Prop :=
  ∀ (c : Instr) (s : State), ∃ t, exec c s = .next t ∧ t.pending = s.pending ∧ s.now ≤ t.now

/-- POWER_ON, and the release of RESET_N, put every field at the value the manual states; the level conditions are then to be read
in the first event. -/
def Obligations.ResetEventsSetEveryValue : Prop :=
  (∀ (time : Nat) (p : Pins) (s : State), ∃ u, exec (.powerOn time p) s = .next u ∧
    ResetValues p u ∧ u.pending = s.pending ∧ u.now = max s.now time) ∧
  ∀ (time : Nat) (p : Pins) (s : State), s.inReset = true → ∃ u, exec (.resetNRelease time p) s = .next u ∧
    ResetValues p u ∧ u.pending = s.pending ∧ u.now = max s.now time

/-- RESET_N asserted: nothing is in flight, in progress, in service, pending or timed, every block stands at its reset values, every
line is high-impedance and no coil driven. Until the release, other commands but POWER_ON and RESET_N do nothing. That the values
of R178 and of the tables stand from the assertion on, and the last two clauses, are the model's choice (assumption log 11). -/
def Obligations.AssertedResetStopsThePart : Prop :=
  (∀ (time : Nat) (s : State), ∃ u, exec (.resetN time) s = .next u ∧ u.inReset = true ∧ u.pending = s.pending ∧
    u.now = max s.now time ∧ AtReset u ∧ (∀ e : Elem, u.coilDrive e = none) ∧ ∀ i : Fin 4, u.lineDrive i = none) ∧
  (∀ (c : Instr) (s : State), s.inReset = true → (∀ t p, c ≠ .powerOn t p) → (∀ t, c ≠ .resetN t) →
    (∀ t p, c ≠ .resetNRelease t p) → exec c s = .next s) ∧
  ∀ (time : Nat) (p : Pins) (s : State), s.inReset = false → exec (.resetNRelease time p) s = .next s

/-- The first event after a reset, whichever command it is, reads the level conditions: a condition that is present latches its flag and
requests its trip where that is enabled. That they are read before anything else in that event, so that the command then acts as on a
running part, and that VCOIL_LOW's request stands before DOOR's, is the model's choice (assumption logs 13, 16 and 34). After power-on
and RESET_N an unmasked POWER_UP, which counts as just latched, joins or builds the ALERT frame of that event. -/
def Obligations.LevelConditionsAreRead : Prop :=
  ∀ (k : ResetKind) (s : State), s.inReset = false → s.evu.readDue = some k → s.frontStill →
    (∀ time : Nat, ∃ u, exec (.levelConditionsRead time) s = .next u ∧ u.now = max s.now time ∧ LevelsRead s k u) ∧
    ∃ v, v.running ∧ v.frontStill ∧ v.now = s.now ∧ LevelsRead s k v ∧ KeptChain s v ∧
      ∀ c : Instr, (∀ t p, c ≠ .powerOn t p) → (∀ t, c ≠ .resetN t) → (∀ t p, c ≠ .resetNRelease t p) → exec c s = exec c v

/-! ## Links, queues, transmissions -/

/-- A link-up event sends the current flow mark before anything else. -/
def Obligations.LinkUpSendsTheMark : Prop :=
  ∀ (time : Nat) (p : Port) (s : State), s.running → s.frontStill → (s.lnk.port p).link = .down → (s.lnk.port p).tx = none →
    ∃ u, exec (.linkUp time p) s = .next u ∧
      KeptChain ((s.advance time).setPort p
        { s.lnk.port p with link := .up, wire := .mark (s.lnk.sentOn p) :: (s.lnk.port p).wire }) u ∧
      KeptMatrix (s.advance time) u ∧ (s.calm → Still (s.advance time) u)

/-- A link-down event cuts the transmission in progress; the received mark becomes GO; at Port B the urgent slot is emptied and its
frame counted. The queued frames stay, but for a released head at Port B, which now stands at the chain end: examined by an idle
agent, a step frame of an addressed node becomes an echo, or waits while the echo outbox is occupied; any other is discarded and
counted. -/
def Obligations.LinkDownKeepsTheQueues : Prop :=
  ∀ (time : Nat) (s : State), s.running → s.frontStill →
    (s.lnk.a.link = .up → (∀ x, s.lnk.a.tx = some x → x.flushed = false) →
      ∃ u, exec (.linkDown time .a) s = .next u ∧
        KeptChain ((s.advance time).setPort .a
          { s.lnk.a with link := .down, received := .go, tx := none, marksWaiting := [] }) u ∧
        KeptMatrix (s.advance time) u ∧ (s.calm → Still (s.advance time) u)) ∧
    (s.lnk.b.link = .up → (∀ x, s.lnk.b.tx = some x → x.flushed = false) →
      (s.headQuiet ∨ ∀ x ∈ s.fwq.queue.head?, x.status ≠ .released) →
      ∃ u, exec (.linkDown time .b) s = .next u ∧
        KeptChain
          { (s.advance time).setPort .b
              { s.lnk.b with link := .down, received := .go, tx := none, marksWaiting := [] } with
            fwq.slot := none
            lnk.endDiscards :=
              if s.fwq.slot.isSome then min (s.lnk.endDiscards + 1) 65535 else s.lnk.endDiscards } u ∧
        KeptMatrix (s.advance time) u ∧ (s.calm → Still (s.advance time) u) ∧
        ∀ x rest, s.mga = .idle → s.fwq.queue = x :: rest → x.status = .released →
          (∀ y ∈ rest.head?, y.status ≠ .released) →
          (x.frame.isStep = true → s.lnk.transparent = false → s.rtq.echo = none →
            u.fwq.queue = rest ∧ u.echoed (ownFrame s.lnk kindEcho x.frame.tag [x.frame.stepIndex, x.frame.status])) ∧
          (x.frame.isStep = true → s.lnk.transparent = false → s.rtq.echo ≠ none → (s.advance time).complete →
            u.fwq.queue = x :: rest ∧ u.rtq.echo = s.rtq.echo) ∧
          (x.frame.isStep = false ∨ s.lnk.transparent = true →
            u.fwq.queue = rest ∧
            u.lnk.endDiscards = min (s.lnk.endDiscards + (if s.fwq.slot.isSome then 1 else 0) + 1) 65535))

/-- A frame that fails the check is counted on its port, signalled, and has no other effect. -/
def Obligations.BadFramesAreCounted : Prop :=
  ∀ (time : Nat) (p : Port) (bs : List Byte) (s : State), s.running → s.frontStill → (s.lnk.port p).link = .up →
    frameCheckOk s.lnk.sense bs = false →
    ∃ u, exec (.frameReceived time p bs) s = .next u ∧
      KeptChain ((s.advance time).setPort p
        { s.lnk.port p with checkErrors := min ((s.lnk.port p).checkErrors + 1) 65535 }) u ∧
      KeptMatrix (s.advance time) u ∧ u.isLatched .checkErr = true ∧
      (s.calm → u.csd = s.csd ∧ u.tbs = s.tbs ∧ u.mdc = s.mdc ∧ u.evu = (latchFlag .checkErr s).evu)

/-- A frame from above joins the tail of the Forward Queue; a full queue drops and counts it. -/
def Obligations.ForwardQueueAdmits : Prop :=
  ∀ (time : Nat) (bs : List Byte) (s : State), s.running → s.lnk.a.link = .up → frameCheckOk s.lnk.sense bs = true →
    (parseFrame bs).kind ≠ kindUrgent →
    (s.frontBlocked → s.fwq.queue.length < 32 →
      ∃ u, exec (.frameReceived time .a bs) s = .next u ∧
        KeptChain { s.advance time with
          fwq.queue := s.fwq.queue ++ [{ frame := parseFrame bs, status := .waiting, own := false }] } u ∧
        KeptMatrix (s.advance time) u) ∧
    (s.frontStill → 32 ≤ s.fwq.queue.length →
      ∃ u, exec (.frameReceived time .a bs) s = .next u ∧
        KeptChain { s.advance time with lnk.fwdDrops := min (s.lnk.fwdDrops + 1) 65535 } u ∧
        KeptMatrix (s.advance time) u ∧ u.isLatched .overflow = true)

/-- A frame from below joins the tail of the Return Queue with its bytes unchanged, whatever it is, while the queue holds fewer
than 24; at 24 it is dropped and counted. -/
def Obligations.ReturnTrafficIsPassed : Prop :=
  ∀ (time : Nat) (bs : List Byte) (s : State), s.running → s.frontStill → s.lnk.b.link = .up →
    frameCheckOk s.lnk.sense bs = true →
    (s.rtq.queue.length < 24 →
      ∃ u, exec (.frameReceived time .b bs) s = .next u ∧ (parseFrame bs).wireBytes false s.lnk.sense = bs ∧
        KeptChain { s.advance time with rtq.queue := s.rtq.queue ++ [{ frame := parseFrame bs, own := false }] } u ∧
        KeptMatrix (s.advance time) u ∧ (s.calm → Still (s.advance time) u)) ∧
    (24 ≤ s.rtq.queue.length →
      ∃ u, exec (.frameReceived time .b bs) s = .next u ∧
        KeptChain { s.advance time with lnk.retDrops := min (s.lnk.retDrops + 1) 65535 } u ∧
        KeptMatrix (s.advance time) u ∧ u.isLatched .overflow = true)

/-- An URGENT frame from above takes the slot or is dropped and counted; a SAFE_ALL for this node requests a trip either way. One
that finds the transmitter of Port B idle is sent at once, ahead of a released head and whatever mark Port B holds. While Port B's
link is DOWN no URGENT frame stays: one that arrives is discarded and counted after its SAFE_ALL has acted, and one in the slot is
discarded at the link-down event. -/
def Obligations.UrgentFramesActAtArrival : Prop :=
  (∀ (time : Nat) (bs : List Byte) (s : State), s.running → s.frontStill → s.lnk.a.link = .up → s.lnk.b.link = .up →
     frameCheckOk s.lnk.sense bs = true → (parseFrame bs).kind = kindUrgent →
     let f := parseFrame bs
     let e := { s.advance time with
       mdc.trips := s.mdc.trips ++
         (if f.payload = [0x5A] ∧ (f.dest = s.lnk.addrByte ∨ f.dest = broadcast) ∧ s.lnk.transparent = false
          then [.safeAll] else []) }
     ∃ u, exec (.frameReceived time .a bs) s = .next u ∧ KeptMatrix e u ∧
       (s.fwq.slot = none → KeptChain { e with fwq.slot := some f } u) ∧
       (s.fwq.slot = none → s.lnk.b.tx = none →
         u.lnk.b.tx = some { source := .urgentSlot, bytes := bs, flushed := false }) ∧
       (s.fwq.slot ≠ none →
         KeptChain { e with lnk.urgentDrops := min (s.lnk.urgentDrops + 1) 65535 } u ∧ u.isLatched .overflow = true)) ∧
  (∀ (time : Nat) (bs : List Byte) (s : State), s.running → s.frontStill → s.lnk.a.link = .up → s.lnk.b.link = .down →
    s.fwq.slot = none → frameCheckOk s.lnk.sense bs = true → (parseFrame bs).kind = kindUrgent →
    let f := parseFrame bs
    let e := { s.advance time with
      mdc.trips := s.mdc.trips ++
        (if f.payload = [0x5A] ∧ (f.dest = s.lnk.addrByte ∨ f.dest = broadcast) ∧ s.lnk.transparent = false
         then [.safeAll] else [])
      lnk.endDiscards := min (s.lnk.endDiscards + 1) 65535 }
    ∃ u, exec (.frameReceived time .a bs) s = .next u ∧ u.fwq.slot = none ∧ KeptChain e u ∧ KeptMatrix e u) ∧
  (∀ (time : Nat) (f : Frame) (s : State), s.running → s.frontStill → s.lnk.b.link = .up → s.fwq.slot = some f →
    (s.headQuiet ∨ ∀ x ∈ s.fwq.queue.head?, x.status ≠ .released) →
    (∀ x, s.lnk.b.tx = some x → x.flushed = false) →
    ∃ u, exec (.linkDown time .b) s = .next u ∧ u.fwq.slot = none ∧
      ((∀ x ∈ s.fwq.queue.head?, x.status ≠ .released) → u.lnk.endDiscards = min (s.lnk.endDiscards + 1) 65535))

/-- A flow mark received on an UP link is held; GO lets the released head go at once on Port B, and the Return Queue's head on Port A,
which PAUSE holds back; a DOWN link receives nothing. -/
def Obligations.FlowMarksAreHeld : Prop :=
  ∀ (time : Nat) (p : Port) (m : Mark) (s : State), s.running → s.frontStill →
    ((s.lnk.port p).link = .up →
      ∃ u, exec (.flowMarkReceived time p m) s = .next u ∧
        KeptChain ((s.advance time).setPort p { s.lnk.port p with received := m }) u ∧ KeptMatrix (s.advance time) u ∧
        (∀ x l, p = .b → m = .go → (s.advance time).complete → s.lnk.b.tx = none → s.fwq.slot = none →
          s.fwq.queue = x :: l → x.status = .released →
          u.lnk.b.tx = some { source := .forwardHead, bytes := x.frame.wireBytes x.own s.lnk.sense, flushed := false }) ∧
        (p = .a → (s.advance time).complete → s.lnk.a.tx = none →
          (m = .pause → u.lnk.a.tx = none) ∧
          ∀ y l, m = .go → s.rtq.queue = y :: l →
            u.lnk.a.tx = some { source := .returnHead, bytes := y.frame.wireBytes y.own s.lnk.sense, flushed := false })) ∧
    ((s.lnk.port p).link = .down →
      ∃ u, exec (.flowMarkReceived time p m) s = .next u ∧ KeptChain (s.advance time) u ∧ KeptMatrix (s.advance time) u)

/-- The end of a transmission: the frame is on the fibre, then the marks that waited, and the frame leaves its container. On Port A,
where nothing else was due, an admission pass follows, and then, under GO, the transmission of the Return Queue's new head. On Port B
a frame in the urgent slot goes next, whatever mark is held; after it the released head, under GO. -/
def Obligations.TransmissionsEnd : Prop :=
  ∀ (time : Nat) (s : State), s.running → s.frontStill →
    (∀ x, s.lnk.a.tx = some x → x.source = .returnHead → (s.rtq.report = none ∨ ¬s.stepWaits) →
      ∃ u, exec (.transmissionEnd time .a) s = .next u ∧
        KeptChain { (s.advance time).setPort .a
            { s.lnk.a with
              tx := none
              marksWaiting := []
              wire := s.lnk.a.marksWaiting.reverse.map WireItem.mark ++ .frame x.bytes :: s.lnk.a.wire } with
          rtq.queue := s.rtq.queue.tail } u ∧
        KeptMatrix (s.advance time) u ∧
        ((s.advance time).complete → s.lnk.a.link = .up → (s.lnk.b.link = .up ∨ s.fwq.queue = []) →
          (∀ f, s.mga ≠ .answerWait f) → (s.ste.st = .reportWait → s.ste.report = none) →
          let e := endTransmission .a (s.advance time)
          let v := (admissionPass e).getD e
          u.rtq = v.rtq ∧ (s.lnk.a.received = .pause → u.lnk.a.tx = none) ∧
            (s.lnk.a.received = .go → u.lnk.a.tx = v.rtq.queue.head?.map (fun y =>
              { source := .returnHead, bytes := y.frame.wireBytes y.own s.lnk.sense, flushed := false })))) ∧
    (∀ x, s.lnk.b.tx = some x → x.source = .forwardHead → (s.headQuiet ∨ s.agentBusy) →
      ∃ u, exec (.transmissionEnd time .b) s = .next u ∧
        KeptChain { (s.advance time).setPort .b
            { s.lnk.b with
              tx := none
              marksWaiting := []
              wire := s.lnk.b.marksWaiting.reverse.map WireItem.mark ++ .frame x.bytes :: s.lnk.b.wire } with
          fwq.queue := s.fwq.queue.tail } u ∧
        KeptMatrix (s.advance time) u ∧
        ∀ f, s.lnk.b.link = .up → s.fwq.slot = some f →
          u.lnk.b.tx = some { source := .urgentSlot, bytes := f.wireBytes false s.lnk.sense, flushed := false }) ∧
    (∀ x, s.lnk.b.tx = some x → x.source = .urgentSlot →
      ∃ u, exec (.transmissionEnd time .b) s = .next u ∧
        KeptChain { (s.advance time).setPort .b
            { s.lnk.b with
              tx := none
              marksWaiting := []
              wire := s.lnk.b.marksWaiting.reverse.map WireItem.mark ++ .frame x.bytes :: s.lnk.b.wire } with
          fwq.slot := none } u ∧
        KeptMatrix (s.advance time) u ∧
        ∀ y l, s.lnk.b.link = .up → s.fwq.queue = y :: l → y.status = .released →
          (s.lnk.b.received = .pause → u.lnk.b.tx = none) ∧
          (s.lnk.b.received = .go →
            u.lnk.b.tx = some { source := .forwardHead, bytes := y.frame.wireBytes y.own s.lnk.sense, flushed := false }))

/-- A frame that waits behind the head is examined when it becomes the head, and a head that waits for the agent when the agent
becomes idle: at the end of the transmission of the released head before it, and at the admission of a response, which lets the
answer that kept the agent busy enter the RESPONSE outbox. A released step frame that waits at the chain end for the echo outbox
becomes an echo in the event that admits the waiting echo, and is forwarded instead where Port B's link comes UP before. A step frame that
waits behind a step without hold is examined, and by an engine that is then IDLE, in the event in which the report is placed, at the
completion of the route request or at the admission of the report before it, and at the end of a QUIET step; and one that waits for
the supply latch list, when the verify requested for the last landed elements empties it. -/
def Obligations.WaitingHeadsAreExamined : Prop :=
  (∀ (time : Nat) (x y : FwdEntry) (rest : List FwdEntry) (t : Tx) (s : State), s.running → (s.advance time).complete →
    s.lnk.b.link = .up → s.mga = .idle → s.rtq.responseHeld = false → s.fwq.queue = x :: y :: rest → x.status = .released →
    y.status = .waiting → s.lnk.b.tx = some t → t.source = .forwardHead →
    ∃ u, exec (.transmissionEnd time .b) s = .next u ∧ Examined s y rest u) ∧
  (∀ (time : Nat) (y : FwdEntry) (rest : List FwdEntry) (f : Frame) (t : Tx) (s : State), s.running →
    (s.advance time).complete → s.lnk.b.link = .up → s.mga = .answerWait f → s.rtq.responseHeld = false →
    s.fwq.queue = y :: rest → y.status = .waiting → s.lnk.a.tx = some t → t.source = .returnHead →
    s.rtq.alert = none → s.rtq.queue.length + marginEntries s.lnk.margin = 24 →
    ∃ u, exec (.transmissionEnd time .a) s = .next u ∧ Examined s y rest u ∧
      ((y.frame.kind = kindRequest → asksSoftReset y.frame = false) → u.rtq.response = some f)) ∧
  (∀ (time : Nat) (x : FwdEntry) (rest : List FwdEntry) (g : Frame) (s : State), s.running → s.headQuiet →
    (s.advance time).complete → s.mga = .idle → s.lnk.transparent = false → s.lnk.b.link = .down →
    s.fwq.queue = x :: rest → x.status = .released → x.frame.isStep = true → s.rtq.echo = some g →
    (∀ t, s.lnk.a.tx = some t → t.source = .returnHead → s.rtq.alert = none → s.rtq.response = none →
      s.rtq.queue.length + marginEntries s.lnk.margin = 24 → (∀ y ∈ rest.head?, y.status ≠ .released) →
      ∃ u, exec (.transmissionEnd time .a) s = .next u ∧ u.fwq.queue = rest ∧ { frame := g, own := true } ∈ u.rtq.queue ∧
        u.rtq.echo = some (ownFrame s.lnk kindEcho x.frame.tag [x.frame.stepIndex, x.frame.status])) ∧
    (s.lnk.b.tx = none → s.lnk.b.received = .go → s.fwq.slot = none →
      ∃ u, exec (.linkUp time .b) s = .next u ∧ u.fwq.queue = x :: rest ∧ u.rtq.echo = some g ∧
        u.lnk.b.tx = some { source := .forwardHead, bytes := x.frame.wireBytes x.own s.lnk.sense, flushed := false })) ∧
  ∀ (y : FwdEntry) (rest : List FwdEntry) (s : State),
    (∀ (time : Nat) (r : RouteRequest) (i : StepIdent) (o : StepOutcome), StepBehind s time y rest → s.ste.st = .reportWait →
      s.rev.route = some r → s.ste.ident = some i → s.ste.outcome = some o → o ≠ .noPath → s.rtq.report = none →
      ∃ u, exec (.routeRequestComplete time) s = .next u ∧ Examined { s with ste.st := .idle } y rest u) ∧
    (∀ (time : Nat) (f g : Frame) (t : Tx), StepBehind s time y rest → s.ste.st = .reportWait → s.ste.report = some f →
      s.rtq.report = some g → s.lnk.a.tx = some t → t.source = .returnHead → s.rtq.alert = none → s.rtq.response = none →
      s.rtq.echo = none → s.rtq.queue.length + marginEntries s.lnk.margin = 24 →
      ∃ u, exec (.transmissionEnd time .a) s = .next u ∧ Examined { s with ste.st := .idle } y rest u ∧ u.rtq.report = some f ∧
        { frame := g, own := true } ∈ u.rtq.queue) ∧
    (∀ (due : Nat) (i : StepIdent), StepBehind s due y rest → s.ste.st = .settling → s.ste.dwell = some due →
      s.ste.ident = some i → i.quiet = true →
      ∃ u, exec .dwellTimerExpiry s = .next u ∧ Examined { s with ste.st := .idle } y rest u) ∧
    ∀ (contacts : List (BitVec 7)) (b : Bank) (due : Nat), StepBehind s due y rest → s.ste.st = .idle →
      s.vfu.activity = .verifying b .recovery due → (∀ x ∈ s.csd.latch, x.state = .landed ∧ bankOf x.elem = b) →
      ∃ u, exec (.verifyComplete contacts) s = .next u ∧ Examined { s with csd.latch := [] } y rest u

/-- The marks about a queue follow its free entries against the hold margin. An admission pass takes the outbox frames in the order
ALERT, RESPONSE, ECHO, REPORT while the free entries exceed the margin, passing over a held acknowledgement, and empties the
outboxes whose frames it takes. -/
def Obligations.HoldMarginGovernsTheQueues : Prop :=
  (∀ s : State,
    let f := 32 - s.fwq.queue.length
    let m := marginEntries s.lnk.margin
    ((s.lnk.sentFwd = .go ∧ f ≤ m) ∨ (s.lnk.sentFwd = .pause ∧ f < 2 * m) →
      (compareFwd s).lnk.sentFwd = .pause) ∧
    ((s.lnk.sentFwd = .go ∧ m < f) ∨ (s.lnk.sentFwd = .pause ∧ 2 * m ≤ f) → (compareFwd s).lnk.sentFwd = .go) ∧
    ((compareFwd s).lnk.sentFwd = s.lnk.sentFwd → compareFwd s = s) ∧
    ((compareFwd s).lnk.sentFwd ≠ s.lnk.sentFwd → s.lnk.a.link = .up → s.lnk.a.tx = none →
      (compareFwd s).lnk.a.wire = .mark (compareFwd s).lnk.sentFwd :: s.lnk.a.wire)) ∧
  (∀ s : State,
     let f := 24 - s.rtq.queue.length
     let m := marginEntries s.lnk.margin
     ((s.lnk.sentRet = .go ∧ f ≤ m) ∨ (s.lnk.sentRet = .pause ∧ f < 2 * m) →
       (compareRet s).lnk.sentRet = .pause) ∧
     ((s.lnk.sentRet = .go ∧ m < f) ∨ (s.lnk.sentRet = .pause ∧ 2 * m ≤ f) → (compareRet s).lnk.sentRet = .go) ∧
     ((compareRet s).lnk.sentRet = s.lnk.sentRet → compareRet s = s) ∧
     ((compareRet s).lnk.sentRet ≠ s.lnk.sentRet → s.lnk.b.link = .up → s.lnk.b.tx = none →
       (compareRet s).lnk.b.wire = .mark (compareRet s).lnk.sentRet :: s.lnk.b.wire)) ∧
  ∀ s : State,
    let alert := (s.rtq.alert.map (alertFrame s.lnk)).toList
    let response := if s.rtq.responseHeld = true then [] else s.rtq.response.toList
    let echo := s.rtq.echo.toList
    let room := 24 - s.rtq.queue.length - marginEntries s.lnk.margin
    let t := (admissionPass s).getD s
    t.rtq.queue = s.rtq.queue ++
      ((alert ++ response ++ echo ++ s.rtq.report.toList).take room).map (fun f => { frame := f, own := true }) ∧
    t.rtq.responseHeld = s.rtq.responseHeld ∧
    t.rtq.alert = (if 0 < room then none else s.rtq.alert) ∧
    t.rtq.response = (if alert.length < room ∧ s.rtq.responseHeld = false then none else s.rtq.response) ∧
    t.rtq.echo = (if alert.length + response.length < room then none else s.rtq.echo) ∧
    t.rtq.report = (if alert.length + response.length + echo.length < room then none else s.rtq.report)

/-- A frame that is neither a step frame nor a request for this node goes on untouched, with the very bytes it came with; at the
chain end it is discarded and counted. -/
def Obligations.FramesPassUntouched : Prop :=
  ∀ (time : Nat) (bs : List Byte) (s : State), FrontOpen s time → frameCheckOk s.lnk.sense bs = true →
    (parseFrame bs).kind ≠ kindUrgent → (parseFrame bs).isStep = false →
    ((parseFrame bs).kind ≠ kindRequest ∨ ((parseFrame bs).dest ≠ s.lnk.addrByte ∧ (parseFrame bs).dest ≠ broadcast) ∨
      s.lnk.transparent = true) →
    ∃ u, exec (.frameReceived time .a bs) s = .next u ∧ KeptMatrix (s.advance time) u ∧ Still (s.advance time) u ∧
      u.rtq = s.rtq ∧ u.mga = .idle ∧
      (s.lnk.b.link = .up →
        u.fwq.queue = [{ frame := parseFrame bs, status := .released, own := false }] ∧
        u.lnk.endDiscards = s.lnk.endDiscards ∧
        (s.lnk.b.tx = none → s.lnk.b.received = .go → s.fwq.slot = none →
          u.lnk.b.tx = some { source := .forwardHead, bytes := bs, flushed := false })) ∧
      (s.lnk.b.link = .down → u.fwq.queue = [] ∧ u.lnk.endDiscards = min (s.lnk.endDiscards + 1) 65535)

/-- A step frame that reaches the head outside RUN, or in a transparent part, goes on stamped SKIPPED and touches nothing; at the
chain end of an addressed node it becomes an echo, or waits there while the echo outbox is occupied. While the agent is busy, as it
is throughout ENTRY, the frame waits at the head (for ENTRY by R139, R151 and R160 against words of R48: assumption log 31). -/
def Obligations.SkippedStepsAreStamped : Prop :=
  (∀ (time : Nat) (bs : List Byte) (r : Request) (s : State), s.running → (s.advance time).complete → s.lnk.a.link = .up →
    s.mga = .serving r → s.lnk.transparent = false → s.fwq.queue = [] →
    frameCheckOk s.lnk.sense bs = true → (parseFrame bs).isStep = true →
    ∃ u, exec (.frameReceived time .a bs) s = .next u ∧ KeptMatrix (s.advance time) u ∧ Still (s.advance time) u ∧
      u.mga = .serving r ∧ u.rtq = s.rtq ∧
      u.fwq.queue = [{ frame := parseFrame bs, status := .waiting, own := false }]) ∧
  ∀ (time : Nat) (bs : List Byte) (s : State), FrontOpen s time → frameCheckOk s.lnk.sense bs = true →
    (parseFrame bs).isStep = true → (s.mdc.mode ≠ .run ∨ s.lnk.transparent = true) →
    ∃ u, exec (.frameReceived time .a bs) s = .next u ∧ KeptMatrix (s.advance time) u ∧ Still (s.advance time) u ∧
      u.ste.outcome = s.ste.outcome ∧ (∀ f, s.reported f → u.reported f) ∧
      ((parseFrame bs).stamp 2).status = BitVec.ofNat 8 (max (parseFrame bs).status.toNat 2) ∧
      (s.lnk.b.link = .up →
        u.fwq.queue = [{ frame := (parseFrame bs).stamp 2, status := .released, own := true }]) ∧
      (s.lnk.b.link = .down → s.lnk.transparent = false → s.rtq.echo = none →
        u.fwq.queue = [] ∧
        u.echoed (ownFrame s.lnk kindEcho (parseFrame bs).tag
          [(parseFrame bs).stepIndex, BitVec.ofNat 8 (max (parseFrame bs).status.toNat 2)])) ∧
      (s.lnk.b.link = .down → s.lnk.transparent = false → s.rtq.echo ≠ none →
        u.fwq.queue = [{ frame := (parseFrame bs).stamp 2, status := .released, own := true }] ∧ u.rtq.echo = s.rtq.echo) ∧
      (s.lnk.b.link = .down → s.lnk.transparent = true →
        u.fwq.queue = [] ∧ u.lnk.endDiscards = min (s.lnk.endDiscards + 1) 65535)

/-! ## Steps -/

/-- In RUN an idle engine takes the step frame at the head. On a present record it holds the step and asks for its span evaluation;
on an absent record it records the instant and the outcome NO_PATH, its identity dropped at once (assumption log 21), and the frame
goes on unchanged, at the chain end as an echo, for which it waits while the echo outbox is occupied. The frame waits at the head,
and nothing changes, while the engine is in REPORT_WAIT or CHECKING, holds a step that the frame may not preempt, or the supply
latch list is not empty. -/
def Obligations.StepsAreTaken : Prop :=
  ∀ (time : Nat) (bs : List Byte) (s : State), FrontOpen s time → frameCheckOk s.lnk.sense bs = true →
    (parseFrame bs).isStep = true → s.mdc.mode = .run → s.lnk.transparent = false →
    let f := parseFrame bs
    let record := s.tbs.paths[f.stepIndex.toNat]'(f.stepIndex.isLt)
    let noPath := { s.advance time with
      ste.ident := none, ste.takeAt := max s.now time, ste.outcome := some .noPath }
    ∃ u, exec (.frameReceived time .a bs) s = .next u ∧
      (s.ste.st = .idle → s.csd.latch = [] →
        u.csd = s.csd ∧ u.tbs = s.tbs ∧ u.mdc = s.mdc ∧ u.evu = s.evu ∧
        (∀ p, record = some p → Taken (s.advance time) f p u) ∧
        (record = none → s.lnk.b.link = .up →
          u.fwq.queue = [{ frame := f, status := .released, own := false }] ∧ KeptMatrix noPath u) ∧
        (record = none → s.lnk.b.link = .down → s.rtq.echo = none →
          u.fwq.queue = [] ∧ u.echoed (ownFrame s.lnk kindEcho f.tag [f.stepIndex, f.status]) ∧ KeptMatrix noPath u) ∧
        (record = none → s.lnk.b.link = .down → s.rtq.echo ≠ none →
          u.fwq.queue = [{ frame := f, status := .released, own := false }] ∧ u.rtq.echo = s.rtq.echo ∧ KeptMatrix noPath u)) ∧
      (s.ste.st = .reportWait ∨ s.ste.st = .checking ∨
          (s.ste.holdsStep = true ∧ (f.preempt = false ∨ s.rtq.report ≠ none)) ∨ s.csd.latch ≠ [] →
        u.fwq.queue = [{ frame := f, status := .waiting, own := false }] ∧ u.ste = s.ste ∧ u.rtq = s.rtq ∧ u.mga = .idle ∧
        KeptMatrix (s.advance time) u ∧ Still (s.advance time) u)

/-- A preemptive take ends the step in progress PREEMPTED, cancels what it had pending, leaves its pulses in flight, and takes the
new frame; on an absent record the engine is left IDLE with the outcome NO_PATH, the new frame's identity dropped at once
(assumption log 21), and the frame goes on, or waits at the chain end for an occupied echo outbox. -/
def Obligations.PreemptiveTakesEndTheStep : Prop :=
  ∀ (time : Nat) (bs : List Byte) (i : StepIdent) (s : State), FrontOpen s time →
    frameCheckOk s.lnk.sense bs = true → (parseFrame bs).isStep = true → (parseFrame bs).preempt = true →
    s.mdc.mode = .run → s.lnk.transparent = false →
    (s.ste.st = .muting ∨ s.ste.st = .actuating ∨ s.ste.st = .settling) → s.rtq.report = none → s.csd.latch = [] →
    s.ste.ident = some i →
    let f := parseFrame bs
    let record := s.tbs.paths[f.stepIndex.toNat]'(f.stepIndex.isLt)
    ∃ u, exec (.frameReceived time .a bs) s = .next u ∧ (∀ p, record = some p → Taken (s.advance time) f p u) ∧
      (record = none →
        u.ste.st = .idle ∧ u.ste.ident = none ∧ u.ste.outcome = some .noPath ∧ u.ste.takeAt = max s.now time ∧
        u.ste.settledMark = s.ste.settledMark ∧ u.ste.hot = s.ste.hot ∧ u.ste.wearFlag = s.ste.wearFlag ∧
        u.rev.evaluation = none ∧
        (s.lnk.b.link = .up → u.fwq.queue = [{ frame := f, status := .released, own := false }]) ∧
        (s.lnk.b.link = .down → s.rtq.echo = none →
          u.fwq.queue = [] ∧ u.echoed (ownFrame s.lnk kindEcho f.tag [f.stepIndex, f.status])) ∧
        (s.lnk.b.link = .down → s.rtq.echo ≠ none →
          u.fwq.queue = [{ frame := f, status := .released, own := false }] ∧ u.rtq.echo = s.rtq.echo)) ∧
      u.csd.pulses = s.csd.pulses ∧ u.csd.recorded = s.csd.recorded ∧ u.tbs = s.tbs ∧ u.mdc = s.mdc ∧
      (∀ e : Elem, u.csd.pending[e] = if s.ste.st = .actuating then none else s.csd.pending[e]) ∧
      u.isLatched .stepFault = true ∧
      (i.quiet = false →
        u.reported (reportFrame s.lnk i.tag i.index .preempted s.ste.hot s.ste.wearFlag
          (min (max s.now time - s.ste.takeAt) 4294967295) []))

/-- The verdict of the span evaluation decides the step, by the first line of the table that applies. A step with nothing to move and
a dwell of 0 ends at once. On leaving CHECKING for another state a step without hold releases its frame with severity 0; one with
hold keeps it, until it ends. -/
def Obligations.SpanVerdictDecides : Prop :=
  ∀ (time : Nat) (v : Evaluation) (p : PathRec) (s : State), s.running → s.frontFirm → s.mdc.mode = .run →
    s.ste.st = .checking → s.rev.evaluation = some v → s.ste.snapshot = some p →
    let e := s.advance time
    let verdict := runWalk s.tbs v.sets Config.walkFuel v.walk
    let empty := ∀ i : Elem, s.ste.changing[i] = none
    ∃ u, exec (.spanVerdict time) s = .next u ∧ u.rev.evaluation = none ∧
      ((∃ x, verdict = .interlock x) → Ended e .rejectedInterlock u) ∧
      ((∃ x, verdict = .spanLimit x) → Ended e .rejectedSpanLimit u) ∧
      (verdict = .pass → s.csd.latch ≠ [] → Ended e .failedSupply u) ∧
      (verdict = .pass → s.csd.latch = [] → empty → s.csd.anyInFlight = true → u.ste.st = .actuating) ∧
      (verdict = .pass → s.csd.latch = [] → empty → s.csd.anyInFlight = false → p.dwell ≠ 0 →
        u.ste.st = .settling ∧ u.ste.dwell = some (e.now + p.dwell)) ∧
      (verdict = .pass → s.csd.latch = [] → ¬empty → s.csd.supply = .low → Ended e .failedSupply u) ∧
      (verdict = .pass → s.csd.latch = [] → ¬empty → s.csd.supply = .good → s.rfPresent = false →
        u.ste.st = .actuating ∧
        ∀ (i : Elem) (q : Pos), s.ste.changing[i] = some q → (s.tbs.classOf i).isSome →
          u.csd.pending[i] = some q ∨ ∃ x, u.csd.pulses[i] = some x ∧ x.target = q) ∧
      (verdict = .pass → s.csd.latch = [] → ¬empty → s.csd.supply = .good → s.rfPresent = true →
        (s.tbs.runtime.muteGrace ≠ 0 →
          u.ste.st = .muting ∧ u.ste.grace = some (e.now + s.tbs.runtime.muteGrace * 1000)) ∧
        (s.tbs.runtime.muteGrace = 0 → u.ste.outcome = some .failedHot)) ∧
      (verdict = .pass → s.csd.latch = [] → empty ∨ s.csd.supply = .good → p.hold = false → s.lnk.b.link = .up →
        ∀ x rest, s.fwq.queue = x :: rest → x.status = .held →
          u.fwq.queue = { frame := x.frame.stamp 0, status := .released, own := true } :: rest) ∧
      (verdict = .pass → s.csd.latch = [] → empty ∨ s.csd.supply = .good → p.hold = true →
        (empty → s.csd.anyInFlight = true ∨ p.dwell ≠ 0) →
        (¬empty → s.rfPresent = false ∨ s.tbs.runtime.muteGrace ≠ 0) →
        ∀ x rest, s.fwq.queue = x :: rest → x.status = .held → u.fwq.queue = x :: rest) ∧
      (verdict = .pass → s.csd.latch = [] → empty → s.csd.anyInFlight = false → p.dwell = 0 →
        Ended (if p.hold = true then e else { e with fwq.queue := [] })
          (if s.ste.hot = true ∨ s.ste.wearFlag = true then .settledDegraded else .settled) u)

/-- A PASS of a span evaluation over sets that hold every present position excludes what the evaluation looks for: in a valid
topology no source then reaches a terminal forbidden to it, and none reaches another source. -/
def Obligations.SpanPassExcludesForbiddenRoutes : Prop :=
  ∀ (t : Tbs) (c : Csd) (sets : Vector (List Pos) 48), t.failingLink = none → LinksSound t →
    (∀ (e : Elem) (p : Pos), c.walkPosition e = some p → p ∈ sets[e]) → spanVerdict t sets = .pass →
    ∀ src : Fin 8, (∀ x, (trace t c src).outcome = .terminal x → some (src, x) ∉ t.interlock.toList) ∧
      ∀ x, (trace t c src).outcome ≠ .cross x

/-- The expiries of the grace and dwell timers end the step: FAILED_HOT, and SETTLED or SETTLED_DEGRADED by the step's flags; the
coil side stands. -/
def Obligations.TimerExpiriesEndTheStep : Prop :=
  (∀ (due : Nat) (s : State), s.running → s.frontFirm → s.ste.st = .muting → s.ste.grace = some due →
    ∃ u, exec .graceTimerExpiry s = .next u ∧ Ended (s.advance due) .failedHot u ∧
      (s.calm → u.csd = s.csd ∧ u.tbs = s.tbs ∧ u.mdc = s.mdc)) ∧
  (∀ (due : Nat) (s : State), s.running → s.frontFirm → s.ste.st = .settling → s.ste.dwell = some due →
    ∃ u, exec .dwellTimerExpiry s = .next u ∧
      Ended (s.advance due) (if s.ste.hot = true ∨ s.ste.wearFlag = true then .settledDegraded else .settled) u ∧
      (s.calm → u.csd = s.csd ∧ u.tbs = s.tbs ∧ u.mdc = s.mdc ∧ u.evu = s.evu))

/-- The results of the route request make the report and the ROUTE table. NO_PATH makes no report (R50), so the outcome is another. In
REPORT_WAIT a report that finds the report outbox empty enters it, and the engine is IDLE, its step discarded and the idle-lead timer
started in RUN and SAFE; one that finds the outbox occupied waits, with the engine in REPORT_WAIT, and enters it in the event that
admits the report before it. -/
def Obligations.RouteResultsAreReported : Prop :=
  (∀ (time : Nat) (r : RouteRequest) (i : StepIdent) (o : StepOutcome) (s : State), s.running → s.frontStill →
    (s.stepWaits → s.csd.latch ≠ [] ∨ s.reportBarred) →
    s.rev.route = some r → s.ste.ident = some i → s.ste.outcome = some o → o ≠ .noPath →
    let f := reportFrame s.lnk i.tag i.index o s.ste.hot s.ste.wearFlag s.ste.elapsed r.results
    ∃ u, exec (.routeRequestComplete time) s = .next u ∧ u.rev.route = none ∧
      (∀ n : Fin 8, u.ste.routes[n] = r.results[n.val]?) ∧ u.reported f ∧
      (s.ste.st = .reportWait → ReportOffered s f u) ∧
      (s.calm → u.csd = s.csd ∧ u.tbs = s.tbs ∧ u.evu = s.evu ∧ u.mdc = s.mdc)) ∧
  ∀ (time : Nat) (f g : Frame) (x : Tx) (s : State), s.running → s.headQuiet → (s.advance time).complete →
    s.ste.st = .reportWait → s.ste.report = some f → s.rtq.report = some g → s.rtq.alert = none → s.rtq.response = none →
    s.rtq.echo = none → s.rtq.queue.length + marginEntries s.lnk.margin = 24 → s.lnk.a.tx = some x → x.source = .returnHead →
    ∃ u, exec (.transmissionEnd time .a) s = .next u ∧ u.Rests ∧ u.ste.report = none ∧ u.rtq.report = some f ∧
      { frame := g, own := true } ∈ u.rtq.queue

/-! ## Pulses and the coil supply -/

/-- The end of a driving pulse frees its current and its bank's driver, sets the bank's recovery-until instant from the end
instant, and leaves position and transit alone; a launch pass follows. -/
def Obligations.PulseEndFreesTheBank : Prop :=
  ∀ (i : Elem) (p : Pulse) (s : State), s.running → s.frontStill → s.csd.pulses[i] = some p → p.phase = .driving →
    let e := { s.advance p.endAt with
      csd.pulses := s.csd.pulses.set i (some { p with phase := .settleTime })
      csd.recoveryUntil := s.csd.recoveryUntil.set (bankOf i) (some (p.endAt + p.recovery))
      csd.passDue := true }
    ∃ u, exec (.pulseEnd i) s = .next u ∧ KeptChain (s.advance p.endAt) u ∧ KeptAfterPass e u ∧
      u.csd.drawn i = 0 ∧ u.coilDrive i = none

/-- A landing makes the target the recorded position and ends the transit; the drive of the pulse learns of it, and a launch pass
follows. A landing that leaves nothing outstanding and nothing in flight completes the safe drive: SAFE_HELD, or under the redrive
mark a fresh drive. The last landing in flight ends the hold of a SOFT_RESET's acknowledgement. -/
def Obligations.LandingRecordsTheTarget : Prop :=
  ∀ (i : Elem) (p : Pulse) (s : State), s.running → s.frontStill → s.csd.pulses[i] = some p → p.phase = .settleTime →
    s.ste.st ≠ .actuating →
    let e := { s.advance p.landAt with
      csd.recorded := s.csd.recorded.set i (some p.target)
      csd.pulses := s.csd.pulses.set i none
      csd.passDue := true }
    let latch := s.csd.latch.map (fun x => if x.elem = i ∧ x.state = .driving then { x with state := .landed } else x)
    let left := ∃ x ∈ latch, x.state = .driving
    let last := (∀ j : Elem, j ≠ i → s.csd.pulses[j] = none) ∧ ∀ j : Elem, s.csd.pending[j] = none
    ∃ u, exec (.pulseLand i) s = .next u ∧ KeptChain e u ∧ KeptAfterPass (pulseLandEffect i s) u ∧
      (s.mdc.mode = .run → (∀ j : Elem, s.csd.pending[j] = none) → EvaluationFollows s u) ∧
      u.csd.recorded = s.csd.recorded.set i (some p.target) ∧
      (∀ n, p.drive = .step n → KeptAfterPass e u) ∧
      (p.drive = .safe → KeptAfterPass { e with mdc.outstanding := s.mdc.outstanding.set i none } u) ∧
      (p.drive = .recovery → s.csd.recoveryActive = false → KeptAfterPass e u) ∧
      (p.drive = .recovery → s.csd.recoveryActive = true →
        u.csd.latch = latch ∧
        (left → u.csd.recoveryActive = true ∧ u.vfu.requests = s.vfu.requests ∧ KeptAfterPass { e with csd.latch := latch } u) ∧
        (¬left → u.csd.recoveryActive = false ∧
          ∀ b, b ∈ u.vfu.requests ↔ b ∈ s.vfu.requests ∨ ∃ x ∈ latch, x.state = .landed ∧ bankOf x.elem = b)) ∧
      (last → s.mdc.mode = .safe .driving → s.csd.latch = [] →
        (∀ j : Elem, s.mdc.outstanding[j] = none ∨ (j = i ∧ p.drive = .safe)) →
        (s.mdc.redrive = false → u.mdc.mode = .safe .held) ∧
        (s.mdc.redrive = true → u.mdc.redrive = false ∧
          ((∀ j : Elem, (safeTargets e)[j] = none) → u.mdc.mode = .safe .held) ∧
          ∀ (j : Elem) (q : Pos), (safeTargets e)[j] = some q →
            u.mdc.mode = .safe .driving ∧ u.mdc.outstanding[j] = some q)) ∧
      (∀ r f, last → s.headQuiet → s.mdc.mode = .config → s.rtq.responseHeld = true → s.mga = .serving r →
        s.rtq.response = some f → u.rtq.responseHeld = false ∧ u.mga = .idle ∧ u.answered f)

/-- In ACTUATING the landings of the step's own pulses are counted, those of others are not; a landing of either kind that finds all
elements of the step landed and nothing else in flight lets the step settle. A launch pass follows each landing. -/
def Obligations.LastLandingSettlesTheStep : Prop :=
  ∀ (i : Elem) (k : Pulse) (p : PathRec) (s : State), s.running → s.frontStill → s.ste.st = .actuating →
    s.ste.snapshot = some p → s.csd.pulses[i] = some k → k.phase = .settleTime →
    let landed := if k.drive = .step s.ste.serial ∧ s.ste.changing[i] ≠ none then s.ste.landed.set i true else s.ste.landed
    let done := (∀ j : Elem, s.ste.changing[j] ≠ none → landed[j] = true) ∧ ∀ j : Elem, j ≠ i → s.csd.pulses[j] = none
    (done → p.dwell = 0 → s.frontFirm) →
    ∃ u, exec (.pulseLand i) s = .next u ∧ u.csd.recorded = s.csd.recorded.set i (some k.target) ∧
      KeptAfterPass (pulseLandEffect i s) u ∧
      (¬done → u.ste.st = .actuating ∧ u.ste.landed = landed ∧ u.ste.dwell = s.ste.dwell) ∧
      (done → p.dwell ≠ 0 → u.ste.st = .settling ∧ u.ste.dwell = some (max s.now k.landAt + p.dwell)) ∧
      (done → p.dwell = 0 →
        u.ste.outcome = some (if s.ste.hot = true ∨ s.ste.wearFlag = true then .settledDegraded else .settled))

/-- A bank's recovery-until instant, and the end of a pending element's lockout, each bring a launch pass at that instant. -/
def Obligations.RecoveryAndLockoutMakeAPass : Prop :=
  (∀ (b : Bank) (due : Nat) (s : State), s.running → s.frontStill → s.csd.recoveryUntil[b] = some due →
    restartEvaluation s = none → verifyAction (s.advance due) = none →
    ∃ u, exec (.bankRecoveryReached b) s = .next u ∧ KeptChain (s.advance due) u ∧
      KeptMatrix (launchPass (s.advance due)) u) ∧
  (∀ (i : Elem) (q : Pos) (c : ClassRec) (last : Nat) (s : State), s.running → s.frontStill → s.csd.pending[i] = some q →
    s.tbs.classOf i = some c → s.csd.lastLaunch[i] = some last →
    restartEvaluation s = none → verifyAction (s.advance (last + c.lockout)) = none →
    let e := { s.advance (last + c.lockout) with
      csd.lockoutOver := s.csd.lockoutOver.set i (some (last + c.lockout)) }
    ∃ u, exec (.lockoutElapsed i) s = .next u ∧ KeptChain e u ∧ KeptMatrix (launchPass e) u)

/-- After a launch pass every element that still waits fails a condition of eligibility (at the instant at which its lockout elapses
that condition fails until the expiry has been taken, as R74 has it: assumption log 36), and every launched one has the pulse
record, wear count and last-launch instant of its launch. Each launch with RF_PRESENT asserted is a hot event; a launch that brings a
wear count to its class's non-zero limit signals WEAR; each sets its flag on the step held. Without such a launch those flags and the
hot-switch counter stand. -/
def Obligations.LaunchPassLeavesNoneEligible : Prop :=
  ∀ (d : Drive) (s : State), s.csd.drive = some d →
    let u := launchPass s
    (∀ (i : Elem) (q : Pos) (c : ClassRec), u.csd.pending[i] = some q → s.tbs.classOf i = some c →
      s.tbs.core.budget < u.csd.charged + c.current ∨
      (∃ j : Elem, bankOf j = bankOf i ∧ u.csd.isDriving j = true) ∨
      (∃ t, u.csd.recoveryUntil[bankOf i] = some t ∧ s.now < t) ∨
      (∃ t, u.csd.lastLaunch[i] = some t ∧
        (s.now < t + c.lockout ∨ (s.now = t + c.lockout ∧ 0 < c.lockout ∧ s.csd.lockoutOver[i] ≠ some s.now))) ∨
      u.csd.pulses[i] ≠ none ∨
      (∃ k, s.vfu.activity = .claimed (bankOf i) k) ∨ (∃ k due, s.vfu.activity = .verifying (bankOf i) k due) ∨
      s.csd.supply = .low) ∧
    (∀ (i : Elem) (p : Pulse), u.csd.pulses[i] = some p → s.csd.pulses[i] ≠ some p →
      u.csd.pending[i] = none ∧ u.csd.lastLaunch[i] = some s.now ∧ u.tbs.wear[i] = min (s.tbs.wear[i] + 1) 16777215 ∧
      ∃ q c, s.csd.pending[i] = some q ∧ s.tbs.classOf i = some c ∧
        p = { origin := s.csd.recorded[i], target := q, drive := d, current := c.current, recovery := c.recovery,
              launchAt := s.now, endAt := s.now + c.width, landAt := s.now + c.width + c.settle, phase := .driving }) ∧
    let launched := allElems.filter (fun i => u.csd.pulses[i] ≠ s.csd.pulses[i])
    let worn := ∃ i ∈ launched, ∃ c, s.tbs.classOf i = some c ∧ c.wearLimit ≠ 0 ∧ u.tbs.wear[i] = c.wearLimit ∧
      s.tbs.wear[i] ≠ c.wearLimit
    (s.rfPresent = true → launched ≠ [] → u.isLatched .hot = true ∧ (s.ste.holdsStep = true → u.ste.hot = true) ∧
      (s.evu.hotCount ≤ 65535 → u.evu.hotCount = min (s.evu.hotCount + launched.length) 65535)) ∧
    (s.rfPresent = false ∨ launched = [] →
      u.isLatched .hot = s.isLatched .hot ∧ u.ste.hot = s.ste.hot ∧ u.evu.hotCount = s.evu.hotCount) ∧
    (worn → u.isLatched .wear = true ∧ (s.ste.holdsStep = true → u.ste.wearFlag = true)) ∧
    (¬worn → u.isLatched .wear = s.isLatched .wear ∧ u.ste.wearFlag = s.ste.wearFlag)

/-- The beginning of VCOIL_LOW cuts every pulse, leaves the cut elements UNKNOWN and owed on the latch list, ends an active
recovery drive, latches VCOIL_LOW, fails a step in MUTING or ACTUATING, and restarts a step's evaluation whose sets it outdates. With
the last pulse cut, the hold of a SOFT_RESET's acknowledgement ends. -/
def Obligations.SupplyLossCutsEveryPulse : Prop :=
  ∀ (time : Nat) (s : State), s.running → s.frontStill → s.csd.supply = .good → (∀ b, s.csd.oneDriver b) →
    (s.ste.st = .muting ∨ s.ste.st = .actuating →
      s.frontFirm ∨ (s.stepWaits ∧ (s.csd.latch ≠ [] ∨ s.csd.anyInFlight = true))) →
    ∃ u, exec (.vcoilLow time) s = .next u ∧ u.csd.supply = .low ∧ (∀ i : Elem, u.csd.pulses[i] = none) ∧
      (∀ i : Elem, u.csd.recorded[i] = if s.csd.pulses[i] = none then s.csd.recorded[i] else none) ∧
      (∀ (i : Elem) (p : Pulse), s.csd.pulses[i] = some p →
        { elem := i, target := p.target, state := .owed } ∈ u.csd.latch ∧
        (p.phase = .driving → u.csd.recoveryUntil[bankOf i] = some (max s.now time + p.recovery))) ∧
      (∀ b : Bank, (∀ i : Elem, bankOf i = b → s.csd.isDriving i = false) →
        u.csd.recoveryUntil[b] = s.csd.recoveryUntil[b]) ∧
      (∀ x ∈ u.csd.latch, x.state ≠ .driving) ∧ u.csd.recoveryActive = false ∧
      (s.calm ∨ s.mdc.mode ≠ .safe .driving → ∀ i : Elem, u.csd.pending[i] = none) ∧
      u.isLatched .vcoilLow = true ∧
      u.mdc.trips = s.mdc.trips ++ (if s.tbs.runtime.tripMask.getLsbD 6 = true then [.vcoilLow] else []) ∧
      (s.ste.st = .muting ∨ s.ste.st = .actuating → Ended (s.advance time) .failedSupply u) ∧
      (s.mdc.mode = .run → s.ste.st = .checking → EvaluationFollows s u) ∧
      (∀ r f, s.mdc.mode = .config → s.rtq.responseHeld = true → s.mga = .serving r → s.rtq.response = some f →
        u.rtq.responseHeld = false ∧ u.mga = .idle ∧ u.answered f)

/-- The return of the coil supply: in RUN the owed elements are handed in as the recovery drive; in SAFE the list is discarded and
the safe drive formed afresh; in CONFIG and ENTRY the list is discarded. A launch pass follows in every mode. That an owed element
NOT_FITTED by then becomes DRIVING too, and that an owed target is driven whatever class has been loaded meanwhile, is the model's
choice (assumption logs 32 and 37). -/
def Obligations.SupplyReturnActsByMode : Prop :=
  ∀ (time : Nat) (s : State), s.running → s.frontStill → s.csd.supply = .low →
    ∃ u, exec (.supplyReturn time) s = .next u ∧ u.csd.supply = .good ∧ KeptChain (s.advance time) u ∧
      u.csd.recorded = s.csd.recorded ∧ KeptAfterPass (returnSupply (s.advance time)) u ∧
      (s.mdc.mode = .run → (s.csd.latch.map (·.elem)).Nodup →
        u.csd.latch = s.csd.latch.map (fun x => if x.state = .owed then { x with state := .driving } else x) ∧
        ((∃ x ∈ s.csd.latch, x.state = .owed) → u.csd.recoveryActive = true) ∧
        ∀ x ∈ s.csd.latch, x.state = .owed → (s.tbs.classOf x.elem).isSome →
          u.csd.pending[x.elem] = some x.target ∨ ∃ p, u.csd.pulses[x.elem] = some p ∧ p.target = x.target) ∧
      (∀ sub, s.mdc.mode = .safe sub → u.csd.latch = [] ∧ u.csd.recoveryActive = false ∧
        ∀ n p (i : Elem), s.tbs.core.safeIndex = some n → s.tbs.paths[n] = some p →
          s.csd.destination i ≠ some p.targets[i] →
          u.mdc.mode = .safe .driving ∧ u.mdc.outstanding[i] = some p.targets[i]) ∧
      (s.mdc.mode = .config ∨ (∃ o r, s.mdc.mode = .entry o r) →
        KeptMatrix { s.advance time with
          csd.supply := .good, csd.latch := [], csd.recoveryActive := false, csd.passDue := true } u)

/-! ## Verifies -/

/-- A completed verify corrects the position table of its bank by what the contacts show, and signals a mismatch of the bank when
an element was found indeterminate or away from its recorded position; a launch pass follows. A step's evaluation whose sets the
correction outdates begins afresh. -/
def Obligations.VerifyCorrectsPositions : Prop :=
  ∀ (contacts : List (BitVec 7)) (b : Bank) (k : VerifyKind) (due : Nat) (s : State), s.running → s.frontAtVerify k →
    s.vfu.activity = .verifying b k due →
    let closed := fun (i : Elem) (c : ClassRec) =>
      c.validPositions.filter (fun p => (contacts.getD (i.val % 8) 0).getLsbD p.val)
    let mismatched := ∃ (i : Elem) (c : ClassRec), bankOf i = b ∧ s.tbs.classOf i = some c ∧ c.sense = true ∧
      ((∀ q, closed i c ≠ [q]) ∨ ∃ q p, closed i c = [q] ∧ s.csd.recorded[i] = some p ∧ p ≠ q)
    ∃ u, exec (.verifyComplete contacts) s = .next u ∧ KeptAfterPass (verifyEffect contacts s) u ∧
      (∀ (i : Elem) (c : ClassRec) (q : Pos), bankOf i = b → s.tbs.classOf i = some c → c.sense = true →
        closed i c = [q] → u.csd.recorded[i] = some q) ∧
      (∀ (i : Elem) (c : ClassRec), bankOf i = b → s.tbs.classOf i = some c → c.sense = true →
        (∀ q, closed i c ≠ [q]) → u.csd.recorded[i] = none) ∧
      (∀ i : Elem, bankOf i ≠ b ∨ (∀ c, s.tbs.classOf i = some c → c.sense = false) →
        u.csd.recorded[i] = s.csd.recorded[i]) ∧
      (mismatched → u.isLatched (.mismatch b) = true) ∧
      (mismatched → s.tbs.runtime.tripMask.getLsbD b.val = true → u.mdc.trips = s.mdc.trips ++ [.mismatch b]) ∧
      (¬mismatched ∨ s.tbs.runtime.tripMask.getLsbD b.val = false → u.mdc.trips = s.mdc.trips) ∧
      (s.mdc.mode = .run → (∀ j : Elem, s.csd.pending[j] = none) → EvaluationFollows s u)

/-- Every completed verify, of whatever kind, lowers the debt, not below −3, and adds its bank to the round, which begins anew when it
holds all six banks; the last verify of VERIFY_ALL or of the ENTRY sequence leaves both cleared. A verify requested for the recovery
also takes its LANDED entries off the latch list. -/
def Obligations.VerifyPaysDebt : Prop :=
  ∀ (contacts : List (BitVec 7)) (b : Bank) (k : VerifyKind) (due : Nat) (s : State), s.running → s.frontAtVerify k →
    s.vfu.activity = .verifying b k due →
    let ends := k = .command ∧ (s.vfu.inHand = some (.all 5) ∨
      (s.vfu.inHand = some (.entry 5) ∧ bankMismatched s b contacts = false))
    ∃ u, exec (.verifyComplete contacts) s = .next u ∧
      (ends → u.vfu.debt = 0 ∧ u.vfu.round = 0) ∧
      (¬ends → u.vfu.debt = max (s.vfu.debt - 1) (-3) ∧
        ((∀ c : Bank, c = b ∨ s.vfu.round.getLsbD c.val = true) → u.vfu.round = 0) ∧
        (¬(∀ c : Bank, c = b ∨ s.vfu.round.getLsbD c.val = true) →
          ∀ c : Bank, u.vfu.round.getLsbD c.val = (decide (c = b) || s.vfu.round.getLsbD c.val))) ∧
      (k = .recovery → ∀ x ∈ u.csd.latch, ¬(x.state = .landed ∧ bankOf x.elem = b))

/-- What the Verify Unit does when it is asked: a verify in progress goes on; a claimed bank is verified once it is idle; a FREE unit
takes the first demand that stands, in the order command, recovery request, debt-forced, ordinary, pull-in. The first three take their
bank at once, verifying it if it is idle and claiming it otherwise; the last two take the lowest idle bank not in the round. A slot
expiry that leaves debt owed, and the expiry of the idle lead, start such a verify in the same event. -/
def Obligations.VerifyChoiceFollowsThePriorities : Prop :=
  (∀ s : State,
    let starts := fun k b => verifyAction s = some { s with vfu.activity := .verifying b k (s.now + 1500) }
    let takes := fun k b => (s.csd.bankIdle b s.now = true → starts k b) ∧
      (s.csd.bankIdle b s.now = false → verifyAction s = some { s with vfu.activity := .claimed b k })
    let lowest := fun (ok : Bank → Prop) (b : Bank) => ok b ∧ ∀ c : Bank, c < b → ¬ok c
    let open_ := fun b : Bank => s.vfu.round.getLsbD b.val = false
    let ready := fun b : Bank => open_ b ∧ s.csd.bankIdle b s.now = true
    let runs := s.mdc.mode = .run ∨ s.mdc.mode.isSafe = true
    let owed := 1 ≤ s.vfu.debt ∧ s.ste.st ≠ .muting ∧ s.ste.st ≠ .actuating
    let offered := -3 < s.vfu.debt ∧ s.vfu.debt ≤ 0 ∧ s.vfu.idleMark = true
    (∀ b k due, s.vfu.activity = .verifying b k due → verifyAction s = none) ∧
    (∀ b k, s.vfu.activity = .claimed b k →
      (s.csd.bankIdle b s.now = true → starts k b) ∧ (s.csd.bankIdle b s.now = false → verifyAction s = none)) ∧
    (s.vfu.activity = .free →
      (∀ b, s.vfu.inHand = some (.bank b) ∨ s.vfu.inHand = some (.all b) ∨ s.vfu.inHand = some (.entry b) → takes .command b) ∧
      (s.vfu.inHand = none →
        (∀ b l, s.vfu.requests = b :: l → takes .recovery b) ∧
        (s.vfu.requests = [] →
          (¬runs → verifyAction s = none) ∧
          (runs → s.vfu.debt = 5 → (∀ b, lowest open_ b → takes .debtForced b) ∧ ((∀ b, ¬open_ b) → verifyAction s = none)) ∧
          (runs → s.vfu.debt ≠ 5 → (owed → ∀ b, lowest ready b → starts .ordinary b) ∧
            (offered → ∀ b, lowest ready b → starts .pullIn b) ∧
            ((¬owed ∧ ¬offered) ∨ (∀ b, ¬ready b) → verifyAction s = none)))))) ∧
  (∀ (due : Nat) (b : Bank) (s : State), s.running → s.frontStill → s.calm → s.vfu.slot = some due → s.vfu.activity = .free →
    s.vfu.inHand = none → s.vfu.requests = [] → (s.mdc.mode = .run ∨ s.mdc.mode.isSafe = true) → 0 ≤ s.vfu.debt →
    s.vfu.debt < 4 → s.ste.st ≠ .muting → s.ste.st ≠ .actuating → s.vfu.round.getLsbD b.val = false →
    s.csd.bankIdle b (max s.now due) = true →
    (∀ c : Bank, c < b → s.vfu.round.getLsbD c.val = true ∨ s.csd.bankIdle c (max s.now due) = false) →
    ∃ u, exec .slotTimerExpiry s = .next u ∧ u.vfu.activity = .verifying b .ordinary (max s.now due + 1500)) ∧
  ∀ (due : Nat) (b : Bank) (s : State), s.running → s.frontStill → s.calm → s.vfu.idleLead = some due →
    s.vfu.activity = .free → s.vfu.inHand = none → s.vfu.requests = [] → (s.mdc.mode = .run ∨ s.mdc.mode.isSafe = true) →
    -3 < s.vfu.debt → s.vfu.debt ≤ 0 → s.vfu.round.getLsbD b.val = false →
    s.csd.bankIdle b (max s.now due) = true →
    (∀ c : Bank, c < b → s.vfu.round.getLsbD c.val = true ∨ s.csd.bankIdle c (max s.now due) = false) →
    ∃ u, exec .idleLeadExpiry s = .next u ∧ u.vfu.activity = .verifying b .pullIn (max s.now due + 1500)

/-- The verifies of VERIFY_BANK and VERIFY_ALL: the bank's completion acknowledges the one; the other goes on bank after bank, and
ends at BK5 with the debt and the round cleared and its acknowledgement. -/
def Obligations.VerifyCommandsAreAnswered : Prop :=
  ∀ (contacts : List (BitVec 7)) (b : Bank) (due : Nat) (r : Request) (s : State), s.running → s.headFirm →
    s.vfu.activity = .verifying b .command due → s.mga = .serving r → s.rtq.responseHeld = false →
    (∀ x, s.vfu.inHand = some (.bank x) →
      ∃ u, exec (.verifyComplete contacts) s = .next u ∧ u.vfu.inHand = none ∧ u.vfu.debt = max (s.vfu.debt - 1) (-3) ∧
        u.answered (answerFrame s.lnk r (.ack []))) ∧
    (∀ x : Bank, s.vfu.inHand = some (.all x) → ∀ h : x.val + 1 < 6, (∀ o q, s.mdc.mode ≠ .entry o q) →
      ∃ u, exec (.verifyComplete contacts) s = .next u ∧ u.vfu.inHand = some (.all ⟨x.val + 1, h⟩) ∧ u.mga = .serving r) ∧
    (s.vfu.inHand = some (.all 5) →
      ∃ u, exec (.verifyComplete contacts) s = .next u ∧ u.vfu.inHand = none ∧ u.vfu.debt = 0 ∧ u.vfu.round = 0 ∧
        u.answered (answerFrame s.lnk r (.ack [])))

/-- The ENTRY sequence: its last verify, without a mismatch, makes the mode RUN and acknowledges the request; a mismatch in ENTRY
ends the sequence, refuses the request, and returns the mode to its origin. -/
def Obligations.EntrySequenceDecidesTheMode : Prop :=
  ∀ (contacts : List (BitVec 7)) (b : Bank) (k : VerifyKind) (due : Nat) (o : EntryOrigin) (q : EntryRequest) (r : Request)
    (s : State), s.running → s.headFirm → s.vfu.activity = .verifying b k due → s.mdc.mode = .entry o q →
    s.mga = .serving r → s.rtq.responseHeld = false →
    (bankMismatched s b contacts = false → k = .command → s.vfu.inHand = some (.entry 5) →
      ∃ u, exec (.verifyComplete contacts) s = .next u ∧ u.mdc.mode = .run ∧ u.vfu.debt = 0 ∧ u.vfu.round = 0 ∧
        u.vfu.inHand = none ∧ u.vfu.slot = some (max s.now due + s.tbs.core.slotInterval * 1000000) ∧
        u.ste.settledMark = false ∧ u.answered (answerFrame s.lnk r (.ack [])) ∧
        (s.ste.st = .idle →
          (s.tbs.runtime.idleLead ≠ 0 →
            u.vfu.idleLead = some (max s.now due + s.tbs.runtime.idleLead * 1000) ∧ u.vfu.idleMark = false) ∧
          (s.tbs.runtime.idleLead = 0 → u.vfu.idleMark = true))) ∧
    (bankMismatched s b contacts = false → k = .command → ∀ x : Bank, s.vfu.inHand = some (.entry x) →
      ∀ h : x.val + 1 < 6,
      ∃ u, exec (.verifyComplete contacts) s = .next u ∧ u.mdc.mode = .entry o q ∧
        u.vfu.inHand = some (.entry ⟨x.val + 1, h⟩) ∧ u.mga = .serving r) ∧
    (bankMismatched s b contacts = true → ∀ x : Bank, s.vfu.inHand = some (.entry x) →
      ∃ u, exec (.verifyComplete contacts) s = .next u ∧ u.vfu.inHand = none ∧
        u.answered (answerFrame s.lnk r (.nak .verifyFailed)) ∧
        (o = .config → u.mdc.mode = .config ∧ u.vfu.slot = none) ∧
        (o = .safe → u.mdc.mode.isSafe = true ∧ u.isLatched .safeEntered = true))

/-- The slot timer restarts at each expiry and raises the debt, or finds it at 5 and signals VERIFY_LATE; the idle-lead timer's
expiry sets the idle mark. -/
def Obligations.VerifyTimersExpire : Prop :=
  (∀ (due : Nat) (s : State), s.running → s.frontStill → s.vfu.slot = some due → DebtInRange s →
    ∃ u, exec .slotTimerExpiry s = .next u ∧ KeptChain (s.advance due) u ∧
      u.vfu.slot = some (max s.now due + s.tbs.core.slotInterval * 1000000) ∧ u.vfu.round = s.vfu.round ∧
      (s.vfu.debt < 5 → u.vfu.debt = s.vfu.debt + 1) ∧
      (s.vfu.debt = 5 → u.vfu.debt = 5 ∧ u.isLatched .verifyLate = true) ∧
      (s.calm → u.csd = s.csd ∧ u.tbs = s.tbs ∧ u.mdc = s.mdc)) ∧
  (∀ (due : Nat) (s : State), s.running → s.frontStill → s.vfu.idleLead = some due → s.ste.st = .idle →
    ∃ u, exec .idleLeadExpiry s = .next u ∧ KeptChain (s.advance due) u ∧
      KeptMatrix { s.advance due with vfu.idleLead := none, vfu.idleMark := true } u ∧ u.vfu.idleMark = true ∧
      (s.calm → Still (s.advance due) u))

/-! ## Modes -/

/-- Validation passes tables that meet every check, and only those. Otherwise it reports the first check that fails, in the order of
R110 and, for the links, of R111, with its code and the lowest number that fails it: an element, a class, a link, a path record; the
safe record's number; or the source that the span evaluation names. -/
def Obligations.ValidTablesMeetEveryCheck : Prop :=
  ∀ t : Tbs,
    let names := fun (i : Fin 160) (n : Node) => ∃ l, t.links[i] = some l ∧ (n = l.a ∨ n = l.b)
    let absent := fun e : Elem => t.elements[e] = .absent
    let classless := fun e : Elem => ∃ c, t.elements[e] = .fitted c ∧ t.classes[c] = none
    let excessive := fun c : Fin 8 => ∃ r, t.classes[c] = some r ∧ t.core.budget < r.current
    let unfitted := fun i : Fin 160 => ∃ n e, names i n ∧ (n = .common e ∨ ∃ k, n = .throw e k) ∧ t.elements[e] = .notFitted
    let beyond := fun i : Fin 160 => ∃ e k c, names i (.throw e k) ∧ t.classOf e = some c ∧ c.throws < k.val
    let shared := fun i : Fin 160 => ∃ n j, names i n ∧ j < i ∧ names j n
    let faulty := fun i : Fin 160 => unfitted i ∨ beyond i ∨ shared i
    let invalid := fun k : Fin 256 => ∃ x e, t.paths[k] = some x ∧ x.mask.getLsbD (bankOf e).val = true ∧
      x.targets[e] ∉ t.validPositions e
    let span := fun p : PathRec => spanVerdict t (Vector.ofFn (fun e : Elem => [p.targets[e]]))
    let sound := (∀ e, ¬absent e) ∧ (∀ e, ¬classless e) ∧ (∀ c, ¬excessive c) ∧ ∀ i, ¬faulty i
    (validate t = none ↔
      sound ∧ ∃ n p, t.core.safeIndex = some n ∧ t.paths[n] = some p ∧ p.mask = 0b111111#6 ∧ (∀ k, ¬invalid k) ∧ span p = .pass) ∧
    (∀ e, absent e → (∀ x, x < e → ¬absent x) → validate t = some (1, e.val)) ∧
    (∀ e, (∀ x, ¬absent x) → classless e → (∀ x, x < e → ¬classless x) → validate t = some (2, e.val)) ∧
    (∀ c, (∀ e, ¬absent e) → (∀ e, ¬classless e) → excessive c → (∀ x, x < c → ¬excessive x) → validate t = some (3, c.val)) ∧
    (∀ i, (∀ e, ¬absent e) → (∀ e, ¬classless e) → (∀ c, ¬excessive c) → (∀ x, x < i → ¬faulty x) →
      (unfitted i → validate t = some (4, i.val)) ∧ (¬unfitted i → beyond i → validate t = some (5, i.val)) ∧
      (¬unfitted i → ¬beyond i → shared i → validate t = some (6, i.val))) ∧
    (sound →
      (t.core.safeIndex = none → validate t = some (7, 0)) ∧
      ∀ n, t.core.safeIndex = some n →
        (t.paths[n] = none → validate t = some (8, n.val)) ∧
        ∀ p, t.paths[n] = some p →
          (p.mask ≠ 0b111111#6 → validate t = some (9, n.val)) ∧
          (p.mask = 0b111111#6 →
            (∀ k, invalid k → (∀ x, x < k → ¬invalid x) → validate t = some (10, k.val)) ∧
            ∀ x, (∀ k, ¬invalid k) → span p = .interlock x → validate t = some (11, x.val)))

/-- The outcome of a validation: NAK VALIDATION with the failed check, nothing else changed; or ENTRY, with the ENTRY sequence in
the Verify Unit's hand, a debt-forced claim withdrawn and its timers stopped, whatever level condition has begun meanwhile (assumption log 40). -/
def Obligations.ValidationDecidesEntry : Prop :=
  ∀ (time since : Nat) (r : Request) (s : State), s.running → s.headFirm → s.mdc.validating = some since →
    s.mga = .serving r → s.rtq.responseHeld = false → s.mdc.mode = .config →
    ∃ u, exec (.validationComplete time) s = .next u ∧ u.mdc.validating = none ∧ u.tbs.paths = s.tbs.paths ∧
      (∀ c n, validate s.tbs = some (c, n) →
        u.mdc.mode = .config ∧ u.answered (answerFrame s.lnk r (.nak (.validation c n))) ∧
        KeptMatrix { s.advance time with mdc.validating := none } u ∧
        (s.calm → Still { s.advance time with mdc.validating := none } u)) ∧
      (validate s.tbs = none →
        u.mdc.mode = .entry .config .enterRun ∧ u.vfu.inHand = some (.entry 0) ∧ u.vfu.slot = none ∧ u.mga = .serving r ∧
        (s.vfu.activity = .free ∨ (∃ b, s.vfu.activity = .claimed b .debtForced) →
          u.vfu.activity = .claimed 0 .command ∨ u.vfu.activity = .verifying 0 .command (max s.now time + Config.verifyTime)) ∧
        (s.ste.st ≠ .reportWait → u.vfu.idleLead = none ∧ u.vfu.idleMark = false))

/-- The trip request taken is the oldest one that waits, which is the model's choice (assumption log 16). A trip acts by the mode: RUN
enters SAFE, and a step frame that waited at the head goes on stamped SKIPPED; ENTRY fails on a mismatch and ends in SAFE on any other
trip, a claim made for its sequence released; SAFE and CONFIG stay as they are. -/
def Obligations.TripsActByMode : Prop :=
  ∀ (time : Nat) (c : TripCause) (rest : List TripCause) (s : State), s.running → s.mdc.trips = c :: rest →
    (s.mdc.mode = .run → s.frontFirm →
      ∃ u, exec (.trip time) s = .next u ∧ u.mdc.trips = rest ∧ SafeEntered (s.advance time) u) ∧
    (∀ y l, s.mdc.mode = .run → s.mga = .idle → s.lnk.transparent = false → s.lnk.b.link = .up → s.fwq.queue = y :: l →
      y.status = .waiting → y.frame.isStep = true →
      ∃ u, exec (.trip time) s = .next u ∧ u.mdc.trips = rest ∧ SafeEntered (s.advance time) u ∧
        u.fwq.queue = { frame := y.frame.stamp 2, status := .released, own := true } :: l) ∧
    (∀ o q r, s.mdc.mode = .entry o q → s.headFirm → s.mga = .serving r → s.rtq.responseHeld = false →
      (∀ x, s.vfu.inHand = some (.entry x) →
        ∃ u, exec (.trip time) s = .next u ∧ u.mdc.trips = rest ∧ u.vfu.inHand = none ∧
          (∀ b, s.vfu.activity = .claimed b .command → ClaimReleased .command (s.advance time) u) ∧
          ((∃ b, c = .mismatch b) → u.answered (answerFrame s.lnk r (.nak .verifyFailed)) ∧
            (o = .config → u.mdc.mode = .config ∧
              ∀ b, s.vfu.activity = .claimed b .debtForced → ClaimReleased .debtForced (s.advance time) u) ∧
            (o = .safe → SafeEntered (s.advance time) u)) ∧
          ((∀ b, c ≠ .mismatch b) → u.answered (answerFrame s.lnk r (.nak .state)) ∧ SafeEntered (s.advance time) u))) ∧
    (s.mdc.mode = .config ∨ s.mdc.mode.isSafe = true → s.frontStill →
      ∃ u, exec (.trip time) s = .next u ∧ KeptChain (s.advance time) u ∧
        KeptMatrix { s.advance time with mdc.trips := rest } u)

/-! ## Management -/

/-- ENTER_RUN is refused outside CONFIG or against a standing trip condition, and otherwise begins the validation, its answer
owed. RESUME is accepted in SAFE_HELD with no standing trip condition: ENTRY with origin SAFE. A debt-forced claim not yet started is
withdrawn, and the unit takes BK0 for the sequence. -/
def Obligations.EnterRunAndResumeBegin : Prop :=
  (∀ (h : ReqHead) (s : State), Reaches s h →
     let standing := (s.csd.supply = .low ∧ s.tbs.runtime.tripMask.getLsbD 6 = true) ∨
       (s.doorIn = true ∧ s.tbs.runtime.tripMask.getLsbD 7 = true)
     let pl := commandPayload .enterRun []
     ∃ u, exec (.enterRun h) s = .next u ∧ Served s h pl u ∧
       (s.mdc.mode ≠ .config ∨ standing →
         u.answers s h pl (.nak .state) ∧ KeptMatrix (s.advance h.time) u ∧ Still (s.advance h.time) u) ∧
       (s.mdc.mode = .config → ¬standing → u.owes h pl ∧
         KeptMatrix { s.advance h.time with mdc.validating := some (max s.now h.time) } u ∧
         Still { s.advance h.time with mdc.validating := some (max s.now h.time) } u)) ∧
  ∀ (h : ReqHead) (s : State), Reaches s h →
    let standing := (s.csd.supply = .low ∧ s.tbs.runtime.tripMask.getLsbD 6 = true) ∨
      (s.doorIn = true ∧ s.tbs.runtime.tripMask.getLsbD 7 = true)
    let pl := commandPayload .resume []
    ∃ u, exec (.resume h) s = .next u ∧ Served s h pl u ∧
      (s.mdc.mode ≠ .safe .held ∨ standing →
        u.answers s h pl (.nak .state) ∧ KeptMatrix (s.advance h.time) u ∧ Still (s.advance h.time) u) ∧
      (s.mdc.mode = .safe .held → ¬standing → u.owes h pl ∧ u.mdc.mode = .entry .safe .resume ∧
        u.vfu.inHand = some (.entry 0) ∧ u.vfu.slot = none ∧ u.vfu.debt = s.vfu.debt ∧ u.vfu.round = s.vfu.round ∧
        u.csd.recorded = s.csd.recorded ∧ u.tbs.paths = s.tbs.paths ∧
        (s.vfu.activity = .free ∨ (∃ b, s.vfu.activity = .claimed b .debtForced) →
          u.vfu.activity = .claimed 0 .command ∨
            u.vfu.activity = .verifying 0 .command (max s.now h.time + Config.verifyTime)) ∧
        ∀ b k due, s.vfu.activity = .verifying b k due → u.vfu.activity = .verifying b k due)

/-- ENTER_CONFIG is accepted in RUN with the engine IDLE and in SAFE_HELD; it keeps positions, debt and round, stops the verify
timers, and from RUN ends a recovery. A claim made for the debt or for the recovery is released; a verify in progress goes on. An ALERT frame that waits carries the new mode and the latched set from then on. -/
def Obligations.EnterConfigLeavesRunAndSafe : Prop :=
  ∀ (h : ReqHead) (s : State), Reaches s h →
    let allowed := (s.mdc.mode = .run ∧ s.ste.st = .idle) ∨ s.mdc.mode = .safe .held
    let pl := commandPayload .enterConfig []
    ∃ u, exec (.enterConfig h) s = .next u ∧ Served s h pl u ∧ u.csd.recorded = s.csd.recorded ∧
      (¬allowed → u.answers s h pl (.nak .state) ∧ KeptMatrix (s.advance h.time) u ∧ Still (s.advance h.time) u) ∧
      (allowed → u.answers s h pl (.ack []) ∧ u.mdc.mode = .config ∧ u.mdc.redrive = false ∧
        (∀ i : Elem, u.mdc.outstanding[i] = none) ∧ u.vfu.slot = none ∧ u.vfu.requests = [] ∧
        u.vfu.idleLead = none ∧ u.vfu.idleMark = false ∧ u.vfu.debt = s.vfu.debt ∧ u.vfu.round = s.vfu.round ∧
        (s.mdc.mode = .run → u.csd.latch = [] ∧ u.csd.recoveryActive = false) ∧
        (∀ b k, s.vfu.activity = .claimed b k → k = .debtForced ∨ k = .recovery → ClaimReleased k s u) ∧
        (∀ b k due, s.vfu.activity = .verifying b k due → ∃ x, u.vfu.activity = .verifying b x due) ∧
        ∀ a, s.rtq.alert = some a → ∃ b, u.rtq.alert = some b ∧ b.tag = a.tag ∧ b.mode = Mode.config.shown ∧
          b.flags = u.evu.latched ∧ a.raised ||| b.raised = b.raised)

/-- ENTER_SAFE enters SAFE from RUN, is acknowledged in SAFE, and refused in CONFIG. -/
def Obligations.EnterSafeActsByMode : Prop :=
  ∀ (h : ReqHead) (s : State), Reaches s h →
    let pl := commandPayload .enterSafe []
    ∃ u, exec (.enterSafe h) s = .next u ∧
      (s.mdc.mode = .run → u.answers s h pl (.ack []) ∧ SafeEntered (s.advance h.time) u) ∧
      (s.mdc.mode.isSafe = true → u.answers s h pl (.ack []) ∧ Served s h pl u ∧ KeptMatrix (s.advance h.time) u ∧
        Still (s.advance h.time) u) ∧
      (s.mdc.mode = .config → u.answers s h pl (.nak .state) ∧ Served s h pl u ∧ KeptMatrix (s.advance h.time) u ∧
        Still (s.advance h.time) u)

/-- VERIFY_ALL is taken in hand; VERIFY_BANK is refused RANGE, ALREADY or LIMIT in that order, and otherwise taken in hand. -/
def Obligations.VerifyCommandsAreTakenInHand : Prop :=
  (∀ (h : ReqHead) (s : State), Reaches s h →
    let pl := commandPayload .verifyAll []
    let e := { s.advance h.time with vfu.inHand := some (.all 0) }
    ∃ u, exec (.verifyAll h) s = .next u ∧ Served s h pl u ∧ u.owes h pl ∧ KeptMatrix e u ∧ Still e u) ∧
  (∀ (h : ReqHead) (bank : Byte) (s : State), Reaches s h →
    let pl := commandPayload .verifyBank [bank]
    let kept := fun u => KeptMatrix (s.advance h.time) u ∧ Still (s.advance h.time) u
    ∃ u, exec (.verifyBank h bank) s = .next u ∧ Served s h pl u ∧
      (6 ≤ bank.toNat → u.answers s h pl (.nak .range) ∧ kept u) ∧
      (∀ b : Bank, bank.toNat = b.val →
        (s.vfu.round.getLsbD b.val = true → u.answers s h pl (.nak .already) ∧ kept u) ∧
        (s.vfu.round.getLsbD b.val = false → s.vfu.debt = -3 → u.answers s h pl (.nak .limit) ∧ kept u) ∧
        (s.vfu.round.getLsbD b.val = false → s.vfu.debt ≠ -3 → u.owes h pl ∧ u.vfu.inHand = some (.bank b) ∧
          KeptMatrix { s.advance h.time with vfu.inHand := some (.bank b) } u ∧
          Still { s.advance h.time with vfu.inHand := some (.bank b) } u)))

/-- READ_CLEAR_EVENTS answers the latched set as it stood, then clears the named flags but for level flags whose condition is
present; an ALERT frame that waits loses them from its flag set and keeps its tag and raised set. CLEAR_COUNTERS sets the six Link
Interface counters and the hot-switch counter to 0; no flag, table, mode or position changes. -/
def Obligations.EventsAndCountersAreCleared : Prop :=
  (∀ (h : ReqHead) (mask : BitVec 16) (s : State), Reaches s h →
    let pl := commandPayload .readClearEvents (beBytes 2 mask.toNat)
    ∃ u, exec (.readClearEvents h mask) s = .next u ∧ Served s h pl u ∧
      u.answers s h pl (.ack (beBytes 2 s.evu.latched.toNat)) ∧
      (∀ i : Nat, i < 16 → u.evu.latched.getLsbD i =
        (s.evu.latched.getLsbD i && !(mask.getLsbD i && !((i == 14 && s.csd.supply == .low) || (i == 15 && s.doorIn))))) ∧
      u.rtq.alert = s.rtq.alert.map (fun a => { a with flags := u.evu.latched, mode := s.mdc.mode.shown }) ∧
      u.evu.sequence = s.evu.sequence ∧ u.evu.hotCount = s.evu.hotCount ∧ u.mdc = s.mdc ∧ u.csd = s.csd ∧ u.tbs = s.tbs) ∧
  ∀ (h : ReqHead) (s : State), Reaches s h →
    let pl := commandPayload .clearCounters []
    ∃ u, exec (.clearCounters h) s = .next u ∧ Served s h pl u ∧ u.answers s h pl (.ack []) ∧
      u.lnk.a.checkErrors = 0 ∧ u.lnk.b.checkErrors = 0 ∧ u.lnk.fwdDrops = 0 ∧ u.lnk.retDrops = 0 ∧
      u.lnk.urgentDrops = 0 ∧ (h.dest ≠ broadcast → u.lnk.endDiscards = 0) ∧ u.evu.hotCount = 0 ∧
      u.evu.latched = s.evu.latched ∧ u.csd = s.csd ∧ u.tbs = s.tbs ∧ u.mdc = s.mdc ∧ KeptMatrix (s.advance h.time) u

/-- SET_MARKER replaces the load marker with its value, in every mode; the answer carries the marker as now held. -/
def Obligations.SetMarkerReplacesTheMarker : Prop :=
  ∀ (h : ReqHead) (value : BitVec 32) (s : State), Reaches s h →
    let pl := commandPayload .setMarker (beBytes 4 value.toNat)
    let e := { s.advance h.time with tbs.marker := value }
    ∃ u, exec (.setMarker h value) s = .next u ∧ Served s h pl u ∧ SameCounters s u ∧ u.tbs.marker = value ∧
      u.answers s h pl (.ack (beBytes 4 u.tbs.marker.toNat)) ∧ KeptMatrix e u ∧ Still e u

/-- SOFT_RESET makes the mode CONFIG and the engine IDLE, cancels what was pending, keeps pulses in flight, positions and tables,
clears the debt, the round, the claim and the flags, flushes both queues, the slot and the outboxes but for a frame in transmission,
which stays until its end, sets the marks last sent to GO, and holds its acknowledgement while a pulse is in flight. A frame that a
transmitter could begin to send in this event goes with the flush, which is the model's choice (assumption log 39); but whether the copy
of a broadcast SOFT_RESET does, or Port B has begun to send it before, the model leaves open (assumption log 33). -/
def Obligations.SoftResetResets : Prop :=
  ∀ (h : ReqHead) (s : State), Reaches s h →
    let ack := answerFrame s.lnk { tag := h.tag, payload := commandPayload .softReset [] } (.ack [])
    let copy := requestFrame s.lnk h (commandPayload .softReset [])
    let flushed := fun u : State => u.fwq.queue = [] ∧ u.fwq.slot = none
    ∃ u, exec (.softReset h) s = .next u ∧ u.mdc.mode = .config ∧ (∀ i : Elem, u.mdc.outstanding[i] = none) ∧
      u.mdc.redrive = false ∧ u.mdc.validating = none ∧ u.ste.st = .idle ∧ u.ste.ident = none ∧ u.ste.snapshot = none ∧
      u.ste.grace = none ∧ u.ste.dwell = none ∧ u.ste.settledMark = false ∧ u.ste.hot = false ∧ u.ste.wearFlag = false ∧
      u.ste.report = none ∧ u.ste.outcome = none ∧ u.rev.evaluation = none ∧ u.rev.route = none ∧ u.ste.routes = s.ste.routes ∧
      (∀ i : Elem, u.ste.changing[i] = none ∧ u.csd.pending[i] = none) ∧ u.csd.pulses = s.csd.pulses ∧
      u.csd.recorded = s.csd.recorded ∧ u.csd.latch = [] ∧ u.csd.recoveryActive = false ∧
      u.csd.lastLaunch = s.csd.lastLaunch ∧ u.csd.recoveryUntil = s.csd.recoveryUntil ∧
      (∀ b k, s.vfu.activity = .claimed b k → u.vfu.activity = .free) ∧
      (∀ b k due, s.vfu.activity = .verifying b k due → ∃ x, u.vfu.activity = .verifying b x due) ∧
      u.vfu.debt = 0 ∧ u.vfu.round = 0 ∧ u.vfu.slot = none ∧ u.vfu.idleLead = none ∧ u.vfu.idleMark = false ∧
      u.vfu.requests = [] ∧ u.vfu.inHand = none ∧ u.evu.latched = 0 ∧ u.evu.readDue = some .soft ∧
      u.evu.hotCount = s.evu.hotCount ∧ u.tbs = s.tbs ∧ u.axu = s.axu ∧ SameCounters s u ∧
      u.rtq.alert = none ∧ u.rtq.echo = none ∧ u.rtq.report = none ∧
      u.lnk.sentRet = .go ∧ u.lnk.sentFwd = .go ∧
      (∃ l, (l = [] ∨ l = [{ frame := ack, own := true }]) ∧
        ((∀ x, s.lnk.a.tx = some x → x.source ≠ .returnHead) → u.rtq.queue = l) ∧
        ∀ x, s.lnk.a.tx = some x → x.source = .returnHead →
          u.rtq.queue = s.rtq.queue.take 1 ++ l ∧ u.lnk.a.tx = some { x with flushed := true }) ∧
      (∀ x, s.lnk.b.tx = some x → x.source = .urgentSlot →
        u.fwq.queue = [] ∧ u.fwq.slot = s.fwq.slot ∧ u.lnk.b.tx = some { x with flushed := true }) ∧
      (s.lnk.b.tx = none → (h.dest ≠ broadcast → flushed u) ∧
        (h.dest = broadcast → flushed u ∨ (s.lnk.b.link = .up ∧ s.lnk.b.received = .go ∧
          u.fwq.queue = [{ frame := copy, status := .released, own := false }] ∧
          u.lnk.b.tx = some { source := .forwardHead, bytes := copy.wireBytes false s.lnk.sense, flushed := true }))) ∧
      (s.csd.anyInFlight = true → u.rtq.responseHeld = true ∧ u.rtq.response = some ack ∧
        u.owes h (commandPayload .softReset [])) ∧
      (s.csd.anyInFlight = false → u.answered ack ∧ u.mga = .idle)

/-- LOAD makes its checks in order: table, length, read-only, index, mode; the first that fails is answered, and nothing is
stored. -/
def Obligations.LoadsAreRefusedInOrder : Prop :=
  ∀ (h : ReqHead) (table : Byte) (index : BitVec 16) (record : List Byte) (s : State), Reaches s h →
    let pl := [opLoad, table] ++ beBytes 2 index.toNat ++ record
    let refused := fun u n => u.answers s h pl (.nak n) ∧ KeptMatrix (s.advance h.time) u ∧ Still (s.advance h.time) u
    ∃ u, exec (.load h table index record) s = .next u ∧
      (tableOf table = none → refused u .noTable) ∧
      ∀ t, tableOf table = some t →
        (record.length ≠ t.recordBytes → refused u .badLength) ∧
        (record.length = t.recordBytes →
          (t.readOnly = true → refused u .readOnly) ∧
          (t.readOnly = false → t.inRange index.toNat = false → refused u .range) ∧
          (t.readOnly = false → t.inRange index.toNat = true → s.mdc.mode ≠ .config →
            t.configOnly = true ∨ (t = .path ∧ ∃ n, s.tbs.core.safeIndex = some n ∧ n.val = index.toNat) →
            refused u .mode))

/-- A LOAD that passes those checks stores the decoded record and is acknowledged, or is refused by the field or by the block that
holds the record, and then nothing is stored. -/
def Obligations.LoadsStoreTheRecord : Prop :=
  ∀ (h : ReqHead) (table : Byte) (index : BitVec 16) (record : List Byte) (t : TableId) (s : State), Reaches s h →
    tableOf table = some t → record.length = t.recordBytes → t.readOnly = false → t.inRange index.toNat = true →
    (s.mdc.mode = .config ∨
      (t.configOnly = false ∧ ∀ n, t = .path → s.tbs.core.safeIndex = some n → n.val ≠ index.toNat)) →
    let pl := [opLoad, table] ++ beBytes 2 index.toNat ++ record
    (∀ e, storeRecord t index.toNat record (s.advance h.time) = .ok e →
      ∃ u, exec (.load h table index record) s = .next u ∧ Served s h pl u ∧ SameCounters s u ∧
        u.answers s h pl (.ack []) ∧ KeptMatrix e u) ∧
    (∀ n, storeRecord t index.toNat record (s.advance h.time) = .error n →
      ∃ u, exec (.load h table index record) s = .next u ∧ Served s h pl u ∧ u.answers s h pl (.nak n) ∧
        KeptMatrix (s.advance h.time) u ∧ Still (s.advance h.time) u)

/-- Replacing a CLASS record is refused while an element of the class is in transit or pending; it keeps a position that stays
valid and makes every other one UNKNOWN. Replacing an ELEMENT record keeps the position only where the record is the same. -/
def Obligations.ReplacedRecordsKeepValidPositions : Prop :=
  (∀ (c : Fin 8) (r : List Byte) (s : State),
    ((∃ e : Elem, s.tbs.elements[e] = .fitted c ∧ (s.csd.pulses[e] ≠ none ∨ s.csd.pending[e] ≠ none)) →
      ∃ n, storeClass c r s = .error n) ∧
    ∀ t, storeClass c r s = .ok t →
      ∃ x, decodeClass r = .ok x ∧ t.tbs = { s.tbs with classes := s.tbs.classes.set c x } ∧
        (∀ (e : Elem) (p : Pos), s.tbs.elements[e] = .fitted c → (t.csd.recorded[e] = some p ↔
          s.csd.recorded[e] = some p ∧ ∃ k, x = some k ∧ p ∈ k.validPositions)) ∧
        ∀ e : Elem, s.tbs.elements[e] ≠ .fitted c → t.csd.recorded[e] = s.csd.recorded[e]) ∧
  ∀ (i : Elem) (r : List Byte) (s t : State), storeElement i r s = .ok t →
    s.csd.pulses[i] = none ∧ s.csd.pending[i] = none ∧
    ∃ x, decodeElement r = .ok x ∧ t.tbs = { s.tbs with elements := s.tbs.elements.set i x } ∧
      (x = .notFitted → t.csd.recorded[i] = some 0) ∧
      (x ≠ .notFitted → x = s.tbs.elements[i] → t.csd.recorded[i] = s.csd.recorded[i]) ∧
      (x ≠ .notFitted → x ≠ s.tbs.elements[i] → t.csd.recorded[i] = none) ∧
      ∀ e : Elem, e ≠ i → t.csd.recorded[e] = s.csd.recorded[e]

/-- FETCH answers the record as it stands at its service, and changes nothing; an index out of range is refused. An empty ROUTE
record is 0xFF and seven open bytes. A POSITION record holds an element's recorded position, its transit and its possible set; the STATUS
record the mode, the engine's state, the debt, the round, the counters, the marker, the latched set, the line levels and the straps. -/
def Obligations.FetchReturnsTheRecord : Prop :=
  (∀ (i : Elem) (s : State),
    let code := fun p : Option Pos => match p with | some p => BitVec.ofNat 8 p.val | none => 0xFF
    ∃ set : Byte, (∀ p : Pos, set.getLsbD p.val = true ↔ p ∈ possible s.tbs s.csd i) ∧
      (s.csd.pulses[i] = none → fetchRecord .position i.val s = [code s.csd.recorded[i], 0, 0, 0, set]) ∧
      ∀ p, s.csd.pulses[i] = some p →
        fetchRecord .position i.val s = [code s.csd.recorded[i], 1, code p.origin, code (some p.target), set]) ∧
  (∀ s : State, ∃ mode engine debt round lines margin sense : Byte,
    fetchRecord .status 0 s = [mode, engine, debt, round]
      ++ beBytes 2 s.lnk.a.checkErrors ++ beBytes 2 s.lnk.b.checkErrors ++ beBytes 2 s.lnk.fwdDrops
      ++ beBytes 2 s.lnk.retDrops ++ beBytes 2 s.lnk.urgentDrops ++ beBytes 2 s.lnk.endDiscards ++ beBytes 2 s.evu.hotCount
      ++ beBytes 4 s.tbs.marker.toNat ++ beBytes 2 s.evu.latched.toNat ++ [lines, s.lnk.addrByte, margin, sense] ∧
    (s.mdc.mode = .config → mode = 0) ∧ ((∃ o q, s.mdc.mode = .entry o q) → mode = 1) ∧ (s.mdc.mode = .run → mode = 2) ∧
    (s.mdc.mode = .safe .driving → mode = 3) ∧ (s.mdc.mode = .safe .held → mode = 4) ∧
    (s.ste.st = .idle → engine = 0) ∧ (s.ste.st = .checking → engine = 1) ∧ (s.ste.st = .muting → engine = 2) ∧
    (s.ste.st = .actuating → engine = 3) ∧ (s.ste.st = .settling → engine = 4) ∧ (s.ste.st = .reportWait → engine = 5) ∧
    (DebtInRange s → debt.toInt = s.vfu.debt) ∧ (∀ b : Bank, round.getLsbD b.val = s.vfu.round.getLsbD b.val) ∧
    (∀ l : Fin 4, lines.getLsbD l.val = s.lineLevel l) ∧ lines.getLsbD 4 = s.rfPresent ∧ lines.getLsbD 5 = s.doorIn ∧
    (lines.getLsbD 6 = true ↔ s.csd.supply = .low) ∧ margin.toNat = marginEntries s.lnk.margin ∧
    (s.lnk.sense = .even → sense = 0) ∧ (s.lnk.sense = .odd → sense = 1)) ∧
  ∀ (h : ReqHead) (table : Byte) (index : BitVec 16) (t : TableId) (s : State), Reaches s h → tableOf table = some t →
    let pl := [opFetch, table] ++ beBytes 2 index.toNat
    ∃ u, exec (.fetch h table index) s = .next u ∧ Served s h pl u ∧ SameCounters s u ∧ KeptMatrix (s.advance h.time) u ∧
      Still (s.advance h.time) u ∧
      (t.inRange index.toNat = true → t ≠ .route →
        u.answers s h pl (.ack (fetchRecord t index.toNat (s.advance h.time)))) ∧
      (∀ n : Fin 8, t = .route → n.val = index.toNat →
        (∀ x, s.ste.routes[n] = some x → u.answers s h pl (.ack x.bytes)) ∧
        (s.ste.routes[n] = none → ∃ open_, open_.length = 7 ∧ u.answers s h pl (.ack (0xFF :: open_)))) ∧
      (t.inRange index.toNat = false → u.answers s h pl (.nak .range))

/-! ## Events and lines -/

/-- A flag that becomes latched joins a waiting alert, or builds one where it is unmasked in an addressed node; a flag already
latched changes nothing. A waiting alert follows the latched set when flags are cleared, and the mode when that changes, its tag and
raised set kept. -/
def Obligations.LatchedFlagsRaiseAlerts : Prop :=
  (∀ (mask : BitVec 16) (s : State), (clearFlags mask s).rtq.alert =
    s.rtq.alert.map (fun a => { a with flags := (clearFlags mask s).evu.latched, mode := s.mdc.mode.shown })) ∧
  (∀ (m : Mode) (s : State), (setMode m s).mdc.mode = m ∧
    (setMode m s).rtq.alert = s.rtq.alert.map (fun a => { a with flags := s.evu.latched, mode := m.shown })) ∧
  ∀ (f : Flag) (s : State),
    (s.isLatched f = true → latchFlag f s = s) ∧
    (s.isLatched f = false →
      (latchFlag f s).isLatched f = true ∧
      (∀ g, g ≠ f → (latchFlag f s).isLatched g = s.isLatched g) ∧
      (∀ a, s.rtq.alert = some a →
        (latchFlag f s).rtq.alert = some { a with
          flags := s.evu.latched ||| f.set, raised := a.raised ||| f.set, mode := s.mdc.mode.shown } ∧
        (latchFlag f s).evu.sequence = s.evu.sequence) ∧
      (s.rtq.alert = none → s.tbs.runtime.alertMask.getLsbD f.bit = false → s.lnk.transparent = false →
        (latchFlag f s).rtq.alert = some {
          tag := s.evu.sequence + 1, flags := s.evu.latched ||| f.set, raised := f.set, mode := s.mdc.mode.shown } ∧
        (latchFlag f s).evu.sequence = s.evu.sequence + 1) ∧
      (s.rtq.alert = none → s.tbs.runtime.alertMask.getLsbD f.bit = true ∨ s.lnk.transparent = true →
        (latchFlag f s).rtq.alert = none ∧ (latchFlag f s).evu.sequence = s.evu.sequence))

/-- A change of a sampled level is handed on: the door's opening latches DOOR and may request a trip; RF returning with a pulse in
flight is a hot event; RF going lets a step in MUTING actuate; nothing else changes. -/
def Obligations.LineChangesAreHandedOn : Prop :=
  ∀ (time : Nat) (line : Fin 4) (level : Bool) (s : State), s.running → s.frontStill → s.calm →
    let x := { s.axu with levels := s.axu.levels.set line level }
    ∃ u, exec (.presentedSignalChange time line level) s = .next u ∧ u.axu = x ∧
      u.mdc.trips = s.mdc.trips ++
        (if s.doorIn = false ∧ x.presented .doorIn = true ∧ s.tbs.runtime.tripMask.getLsbD 7 = true then [.door] else []) ∧
      (s.doorIn = false → x.presented .doorIn = true → u.isLatched .door = true) ∧
      (s.rfPresent = false → x.presented .rfPresentIn = true → s.csd.anyInFlight = true →
        u.evu.hotCount = min (s.evu.hotCount + 1) 65535 ∧ u.isLatched .hot = true ∧
        (s.ste.holdsStep = true → u.ste.hot = true)) ∧
      (s.rfPresent = true → x.presented .rfPresentIn = false → s.ste.st = .muting →
        u.ste.st = .actuating ∧ u.ste.grace = none ∧
        ∀ (i : Elem) (q : Pos), s.ste.changing[i] = some q → (s.tbs.classOf i).isSome →
          u.csd.pending[i] = some q ∨ ∃ p, u.csd.pulses[i] = some p ∧ p.target = q) ∧
      ((s.rfPresent = x.presented .rfPresentIn ∨ (s.ste.st ≠ .muting ∧ s.csd.anyInFlight = false)) →
        (s.doorIn = true ∨ x.presented .doorIn = false) →
        KeptChain (s.advance time) u ∧ KeptMatrix { s.advance time with axu := x } u ∧ Still (s.advance time) u)

/-- The output lines, at every instant: MUTE_OUT is asserted while a step is in MUTING, ACTUATING or SETTLING, the recovery drive is
active, the mode is SAFE or a pulse is in flight; SETTLED_OUT in RUN with the settled mark set and the engine in IDLE or REPORT_WAIT;
ALERT_OUT while a latched flag is unmasked. A line that carries one is driven at the level its polarity gives; an input line and an
unused one are not driven. -/
def Obligations.OutputLinesFollowTheState : Prop :=
  ∀ s : State,
    let mute := s.ste.st = .muting ∨ s.ste.st = .actuating ∨ s.ste.st = .settling ∨ s.csd.recoveryActive = true ∨
      (∃ sub, s.mdc.mode = .safe sub) ∨ ∃ e : Elem, s.csd.pulses[e] ≠ none
    let settled := s.mdc.mode = .run ∧ s.ste.settledMark = true ∧ (s.ste.st = .idle ∨ s.ste.st = .reportWait)
    let alert := ∃ i : Nat, i < 16 ∧ s.evu.latched.getLsbD i = true ∧ s.tbs.runtime.alertMask.getLsbD i = false
    let carries := fun (l : Fin 4) (f : LineFn) (asserted : Prop) => s.axu.records[l].fn = f →
      (s.axu.records[l].polarity = .activeHigh → (asserted → s.lineDrive l = some true) ∧
        (¬asserted → s.lineDrive l = some false)) ∧
      (s.axu.records[l].polarity = .activeLow → (asserted → s.lineDrive l = some false) ∧
        (¬asserted → s.lineDrive l = some true))
    ∀ l : Fin 4, carries l .muteOut mute ∧ carries l .settledOut settled ∧ carries l .alertOut alert ∧
      (s.axu.records[l].fn = .unused ∨ s.axu.records[l].fn = .rfPresentIn ∨ s.axu.records[l].fn = .doorIn →
        s.lineDrive l = none)

/-! ## Loss, records, frames -/

/-- A route loss lies within ±32,767, and between the grid sums that bracket the frequency: it is the sum at an end of the grid
outside it, the lower sum and the quotient rounded to nearest, halves away from zero, inside it, and 0 where the flag carries no
value. -/
def Obligations.LossStaysBetweenTheSums : Prop :=
  ∀ (t : Tbs) (r : RouteRec) (freq : Nat),
    let x := lossResult t r freq
    x.value ≤ 32767 ∧ -32767 ≤ x.value ∧
    (x.flag = .belowGrid → ∃ n, r.outcome = .terminal n ∧ x.value = (routeSum t r n 0).value) ∧
    (x.flag = .aboveGrid → ∃ n, r.outcome = .terminal n ∧ x.value = (routeSum t r n 7).value) ∧
    (x.flag = .inGrid → ∃ n g, r.outcome = .terminal n ∧ t.grid = some g ∧
      ∃ i : Fin 7, g[i.val]'(by omega) ≤ freq ∧ freq < g[i.val + 1]'(by omega) ∧
        let lo := (routeSum t r n i.castSucc).value
        let hi := (routeSum t r n i.succ).value
        let num := (hi - lo) * ((freq : Int) - (g[i.val]'(by omega) : Int))
        let den := (g[i.val + 1]'(by omega) : Int) - (g[i.val]'(by omega) : Int)
        min lo hi ≤ x.value ∧ x.value ≤ max lo hi ∧
        ∃ q : Int, x.value = lo + q ∧ 2 * |num - q * den| ≤ den ∧ (2 * |num - q * den| = den → |num| < |q * den|)) ∧
    (x.flag = .noFreq ∨ x.flag = .noGrid ∨ x.flag = .noRoute → x.value = 0) ∧
    ∀ (n : Fin 32) (i : Fin 8), -32767 ≤ (routeSum t r n i).value ∧ (routeSum t r n i).value ≤ 32767

/-- The loss computation reads only the rows of the links and element positions that the route lists, and the row of its terminal:
tables that agree on these (and on the grid) give the same result. In a valid topology a route lists no element and no link twice,
and every element it lists is fitted, stable, and at the position listed. -/
def Obligations.LossReadsOnlyItsRows : Prop :=
  (∀ (t t' : Tbs) (r : RouteRec) (freq : Nat), t'.grid = t.grid → (∀ l ∈ r.links, t'.linkRow l = t.linkRow l) →
    (∀ e p, (e, p) ∈ r.elems → t'.elementRow e p = t.elementRow e p) →
    (∀ n, r.outcome = .terminal n → t'.tcorr[n] = t.tcorr[n]) → lossResult t' r freq = lossResult t r freq) ∧
  ∀ (t : Tbs) (c : Csd) (src : Fin 8), t.failingLink = none → LinksSound t →
    ((trace t c src).elems.map Prod.fst).Nodup ∧ (trace t c src).links.Nodup ∧
      ∀ (e : Elem) (p : Pos), (e, p) ∈ (trace t c src).elems →
        (∃ k, t.elements[e] = .fitted k) ∧ c.pulses[e] = none ∧ c.recorded[e] = some p

/-- A LOAD stores the record it carries: FETCH of that table and index returns the record's encoding, in the table's length, every
other record of every table reads as before, and loading what FETCH returns changes nothing more. The encoding of a record that a LOAD
accepts decodes to the same record. -/
def Obligations.StoredRecordsReadBack : Prop :=
  (∀ (t : TableId) (i : Nat) (r : List Byte) (s u : State), t.inRange i = true → storeRecord t i r s = .ok u →
    encodedLoad t i r s = some (fetchRecord t i u) ∧ (fetchRecord t i u).length = t.recordBytes ∧
    storeRecord t i (fetchRecord t i u) u = .ok u ∧
    (∀ j, t.inRange j = true → j ≠ i → fetchRecord t j u = fetchRecord t j s) ∧
    ∀ (x : TableId) (j : Nat), x ≠ t → x.readOnly = false → fetchRecord x j u = fetchRecord x j s) ∧
  (∀ r x, decodeClass r = .ok x → (encodeClass x).length = 24 ∧ decodeClass (encodeClass x) = .ok x) ∧
  (∀ r x, decodeElement r = .ok x → (encodeElement x).length = 1 ∧ decodeElement (encodeElement x) = .ok x) ∧
  (∀ r x, decodeLink r = .ok x → (encodeLink x).length = 24 ∧ decodeLink (encodeLink x) = .ok x) ∧
  (∀ r x, decodeInterlock r = .ok x → (encodeInterlock x).length = 3 ∧ decodeInterlock (encodeInterlock x) = .ok x) ∧
  (∀ r x, decodeCore r = .ok x → (encodeCore x).length = 6 ∧ decodeCore (encodeCore x) = .ok x) ∧
  (∀ a n r x, decodeAux a n r = .ok x → (encodeAux x).length = 2 ∧ decodeAux a n (encodeAux x) = .ok x) ∧
  (∀ r x, decodeRow r 0 0 = .ok x → (encodeRow x).length = 17 ∧ decodeRow (encodeRow x) 0 0 = .ok x) ∧
  (∀ r x, decodeGrid r = .ok x → (encodeGrid x).length = 17 ∧ decodeGrid (encodeGrid x) = .ok x) ∧
  (∀ r x, decodeRuntime r = .ok x → (encodeRuntime x).length = 7 ∧ decodeRuntime (encodeRuntime x) = .ok x) ∧
  (∀ r x, decodeWear r = .ok x → (beBytes 4 x).length = 4 ∧ decodeWear (beBytes 4 x) = .ok x) ∧
  (∀ t r x, decodePath t r = .ok x → (encodePath x).length = 64 ∧ decodePath t (encodePath x) = .ok x)

/-- A frame of the part's own passes the check of a receiver strapped to the same sense, and reads back as it was built; a stamp
never lowers the chain status, changes no other field, and where it leaves the status it leaves every byte as received. -/
def Obligations.OwnFramesPassTheCheck : Prop :=
  (∀ (l : Lnk) (kind : Byte) (tag : BitVec 16) (payload : List Byte) (sense : Sense), payload.length ≤ 240 →
    let f := ownFrame l kind tag payload
    frameCheckOk sense (f.wireBytes true sense) = true ∧
      parseFrame (f.wireBytes true sense) = { f with check := f.computedCheck sense }) ∧
  ∀ (bs : List Byte) (sense : Sense) (n : Nat), n ≤ 4 → frameCheckOk sense bs = true → (parseFrame bs).isStep = true →
    let f := parseFrame bs
    let g := f.stamp n
    frameCheckOk sense (g.wireBytes true sense) = true ∧ g.status.toNat = max f.status.toNat n ∧
      g.stepIndex = f.stepIndex ∧ g.preempt = f.preempt ∧ g.quiet = f.quiet ∧ g.freq = f.freq ∧ g.tag = f.tag ∧
      (n ≤ f.status.toNat → g.wireBytes true sense = bs)

/-! ## What every step keeps -/

/-- The driving pulses never draw more than the coil budget, no bank has more than one pulse driving, and no pulse is in flight in
a bank that is being verified: so after reset, and every step keeps it so. -/
def Obligations.CoilSafetyIsKept : Prop :=
  CoilSafe State.reset ∧ ∀ s t : State, CoilSafe s → step s = .next t → CoilSafe t

/-- The debt stays between −3 and +5, the queues within their capacities, the counters and wear counts at or below their stops,
the grid ascending, the link records sound, a NOT_FITTED element at position 0 and out of transit, and the marks last sent agree with
the free entries: GO while more are free than the hold margin, PAUSE while fewer than twice as many. -/
def Obligations.BoundsAreKept : Prop :=
  ∀ s t : State, step s = .next t →
    (DebtInRange s → DebtInRange t) ∧ (QueuesBounded s → QueuesBounded t) ∧ (CountersBounded s → CountersBounded t) ∧
    (WearBounded s → WearBounded t) ∧ (GridAscending s → GridAscending t) ∧ (LinksSound s.tbs → LinksSound t.tbs) ∧
    (UnfittedStill s → UnfittedStill t) ∧ (MarksAgree s → MarksAgree t)

/-- The invariants hold right after reset. -/
def Obligations.ResetIsSafe : Prop := SafeRun State.reset

end
end

