-- ==== Sys2Proof/Laws/State.lean ====
section
/-! SUPPORT. The fields of an updated state, one lemma for each field of each named update of Machine/Ops.lean, so that no
proof has to open a record update. -/

namespace Sys2Proof.Machine

/-! ## Time and choices -/

@[simp] theorem State.advance_now (s : State) (t : Nat) : (s.advance t).now = max s.now t := rfl
@[simp] theorem State.chose_choices (s : State) : s.chose.choices = s.choices + 1 := rfl

@[simp] theorem State.advance_frame (s : State) (t : Nat) :
    (s.advance t).pending = s.pending ∧ (s.advance t).inReset = s.inReset ∧ (s.advance t).choices = s.choices ∧
      (s.advance t).lnk = s.lnk ∧ (s.advance t).fwq = s.fwq ∧ (s.advance t).rtq = s.rtq ∧ (s.advance t).mga = s.mga ∧
      (s.advance t).tbs = s.tbs ∧ (s.advance t).rev = s.rev ∧ (s.advance t).ste = s.ste ∧ (s.advance t).csd = s.csd ∧
      (s.advance t).vfu = s.vfu ∧ (s.advance t).mdc = s.mdc ∧ (s.advance t).evu = s.evu ∧ (s.advance t).axu = s.axu :=
  ⟨rfl, rfl, rfl, rfl, rfl, rfl, rfl, rfl, rfl, rfl, rfl, rfl, rfl, rfl, rfl⟩

@[simp] theorem State.chose_frame (s : State) :
    s.chose.pending = s.pending ∧ s.chose.now = s.now ∧ s.chose.inReset = s.inReset ∧ s.chose.lnk = s.lnk ∧
      s.chose.fwq = s.fwq ∧ s.chose.rtq = s.rtq ∧ s.chose.mga = s.mga ∧ s.chose.tbs = s.tbs ∧ s.chose.rev = s.rev ∧
      s.chose.ste = s.ste ∧ s.chose.csd = s.csd ∧ s.chose.vfu = s.vfu ∧ s.chose.mdc = s.mdc ∧ s.chose.evu = s.evu ∧
      s.chose.axu = s.axu :=
  ⟨rfl, rfl, rfl, rfl, rfl, rfl, rfl, rfl, rfl, rfl, rfl, rfl, rfl, rfl, rfl⟩

/-! ## Ports -/

@[simp] theorem State.setPort_port (s : State) (p : Port) (x : PortState) : (s.setPort p x).lnk.port p = x := by
  cases p <;> rfl

@[simp] theorem Lnk.port_a (l : Lnk) : l.port .a = l.a := rfl
@[simp] theorem Lnk.port_b (l : Lnk) : l.port .b = l.b := rfl
@[simp] theorem State.setPort_a_b (s : State) (x : PortState) : (s.setPort .a x).lnk.b = s.lnk.b := rfl
@[simp] theorem State.setPort_b_a (s : State) (x : PortState) : (s.setPort .b x).lnk.a = s.lnk.a := rfl

/-! ## Reset -/

@[simp] theorem State.initial_pending (p : Pins) (t n : Nat) (q : List Instr) : (State.initial p t n q).pending = q := rfl
@[simp] theorem State.initial_now (p : Pins) (t n : Nat) (q : List Instr) : (State.initial p t n q).now = t := rfl
@[simp] theorem State.initial_inReset (p : Pins) (t n : Nat) (q : List Instr) :
    (State.initial p t n q).inReset = false := rfl
@[simp] theorem State.initial_mga (p : Pins) (t n : Nat) (q : List Instr) : (State.initial p t n q).mga = .idle := rfl
@[simp] theorem State.initial_mode (p : Pins) (t n : Nat) (q : List Instr) :
    (State.initial p t n q).mdc.mode = .config := rfl
@[simp] theorem State.initial_supply (p : Pins) (t n : Nat) (q : List Instr) :
    (State.initial p t n q).csd.supply = p.supply := rfl
@[simp] theorem State.initial_readDue (p : Pins) (t n : Nat) (q : List Instr) :
    (State.initial p t n q).evu.readDue = some .hard := rfl

end Sys2Proof.Machine
end

