-- ==== Sys2Proof/Laws/Flags.lean ====
section
/-! SUPPORT. What the operations of the Event Unit leave alone: one frame lemma for each operation, true for every state. -/

namespace Sys2Proof.Machine

@[simp] theorem refreshAlert_frame (s : State) :
    (refreshAlert s).pending = s.pending ∧ (refreshAlert s).now = s.now ∧ (refreshAlert s).inReset = s.inReset ∧ (refreshAlert s).choices = s.choices ∧ (refreshAlert s).lnk = s.lnk ∧ (refreshAlert s).fwq = s.fwq ∧ (refreshAlert s).rtq.queue = s.rtq.queue ∧ (refreshAlert s).rtq.response = s.rtq.response ∧ (refreshAlert s).rtq.responseHeld = s.rtq.responseHeld ∧ (refreshAlert s).rtq.echo = s.rtq.echo ∧ (refreshAlert s).rtq.report = s.rtq.report ∧ (refreshAlert s).mga = s.mga ∧ (refreshAlert s).tbs = s.tbs ∧ (refreshAlert s).rev = s.rev ∧ (refreshAlert s).ste = s.ste ∧ (refreshAlert s).csd = s.csd ∧ (refreshAlert s).vfu = s.vfu ∧ (refreshAlert s).mdc = s.mdc ∧ (refreshAlert s).evu = s.evu ∧ (refreshAlert s).axu = s.axu := by
  simp [refreshAlert]

@[simp] theorem raiseAlert_frame (f : Flag) (s : State) :
    (raiseAlert f s).pending = s.pending ∧ (raiseAlert f s).now = s.now ∧ (raiseAlert f s).inReset = s.inReset ∧ (raiseAlert f s).choices = s.choices ∧ (raiseAlert f s).lnk = s.lnk ∧ (raiseAlert f s).fwq = s.fwq ∧ (raiseAlert f s).rtq.queue = s.rtq.queue ∧ (raiseAlert f s).rtq.response = s.rtq.response ∧ (raiseAlert f s).rtq.responseHeld = s.rtq.responseHeld ∧ (raiseAlert f s).rtq.echo = s.rtq.echo ∧ (raiseAlert f s).rtq.report = s.rtq.report ∧ (raiseAlert f s).mga = s.mga ∧ (raiseAlert f s).tbs = s.tbs ∧ (raiseAlert f s).rev = s.rev ∧ (raiseAlert f s).ste = s.ste ∧ (raiseAlert f s).csd = s.csd ∧ (raiseAlert f s).vfu = s.vfu ∧ (raiseAlert f s).mdc = s.mdc ∧ (raiseAlert f s).evu.latched = s.evu.latched ∧ (raiseAlert f s).evu.hotCount = s.evu.hotCount ∧ (raiseAlert f s).evu.readDue = s.evu.readDue ∧ (raiseAlert f s).axu = s.axu := by
  unfold raiseAlert
  repeat' split
  all_goals simp

@[simp] theorem latchFlag_frame (f : Flag) (s : State) :
    (latchFlag f s).pending = s.pending ∧ (latchFlag f s).now = s.now ∧ (latchFlag f s).inReset = s.inReset ∧ (latchFlag f s).choices = s.choices ∧ (latchFlag f s).lnk = s.lnk ∧ (latchFlag f s).fwq = s.fwq ∧ (latchFlag f s).rtq.queue = s.rtq.queue ∧ (latchFlag f s).rtq.response = s.rtq.response ∧ (latchFlag f s).rtq.responseHeld = s.rtq.responseHeld ∧ (latchFlag f s).rtq.echo = s.rtq.echo ∧ (latchFlag f s).rtq.report = s.rtq.report ∧ (latchFlag f s).mga = s.mga ∧ (latchFlag f s).tbs = s.tbs ∧ (latchFlag f s).rev = s.rev ∧ (latchFlag f s).ste = s.ste ∧ (latchFlag f s).csd = s.csd ∧ (latchFlag f s).vfu = s.vfu ∧ (latchFlag f s).mdc = s.mdc ∧ (latchFlag f s).evu.hotCount = s.evu.hotCount ∧ (latchFlag f s).evu.readDue = s.evu.readDue ∧ (latchFlag f s).axu = s.axu := by
  unfold latchFlag; split <;> simp

@[simp] theorem requestTrip_frame (c : TripCause) (s : State) :
    (requestTrip c s).pending = s.pending ∧ (requestTrip c s).now = s.now ∧ (requestTrip c s).inReset = s.inReset ∧ (requestTrip c s).choices = s.choices ∧ (requestTrip c s).lnk = s.lnk ∧ (requestTrip c s).fwq = s.fwq ∧ (requestTrip c s).rtq = s.rtq ∧ (requestTrip c s).mga = s.mga ∧ (requestTrip c s).tbs = s.tbs ∧ (requestTrip c s).rev = s.rev ∧ (requestTrip c s).ste = s.ste ∧ (requestTrip c s).csd = s.csd ∧ (requestTrip c s).vfu = s.vfu ∧ (requestTrip c s).mdc.mode = s.mdc.mode ∧ (requestTrip c s).mdc.outstanding = s.mdc.outstanding ∧ (requestTrip c s).mdc.redrive = s.mdc.redrive ∧ (requestTrip c s).mdc.validating = s.mdc.validating ∧ (requestTrip c s).evu = s.evu ∧ (requestTrip c s).axu = s.axu := by
  simp [requestTrip]

@[simp] theorem requestTripOf_frame (f : Flag) (s : State) :
    (requestTripOf f s).pending = s.pending ∧ (requestTripOf f s).now = s.now ∧ (requestTripOf f s).inReset = s.inReset ∧ (requestTripOf f s).choices = s.choices ∧ (requestTripOf f s).lnk = s.lnk ∧ (requestTripOf f s).fwq = s.fwq ∧ (requestTripOf f s).rtq = s.rtq ∧ (requestTripOf f s).mga = s.mga ∧ (requestTripOf f s).tbs = s.tbs ∧ (requestTripOf f s).rev = s.rev ∧ (requestTripOf f s).ste = s.ste ∧ (requestTripOf f s).csd = s.csd ∧ (requestTripOf f s).vfu = s.vfu ∧ (requestTripOf f s).mdc.mode = s.mdc.mode ∧ (requestTripOf f s).mdc.outstanding = s.mdc.outstanding ∧ (requestTripOf f s).mdc.redrive = s.mdc.redrive ∧ (requestTripOf f s).mdc.validating = s.mdc.validating ∧ (requestTripOf f s).evu = s.evu ∧ (requestTripOf f s).axu = s.axu := by
  unfold requestTripOf
  repeat' split
  all_goals simp

@[simp] theorem signal_frame (f : Flag) (s : State) :
    (signal f s).pending = s.pending ∧ (signal f s).now = s.now ∧ (signal f s).inReset = s.inReset ∧ (signal f s).choices = s.choices ∧ (signal f s).lnk = s.lnk ∧ (signal f s).fwq = s.fwq ∧ (signal f s).rtq.queue = s.rtq.queue ∧ (signal f s).rtq.response = s.rtq.response ∧ (signal f s).rtq.responseHeld = s.rtq.responseHeld ∧ (signal f s).rtq.echo = s.rtq.echo ∧ (signal f s).rtq.report = s.rtq.report ∧ (signal f s).mga = s.mga ∧ (signal f s).tbs = s.tbs ∧ (signal f s).rev = s.rev ∧ (signal f s).ste = s.ste ∧ (signal f s).csd = s.csd ∧ (signal f s).vfu = s.vfu ∧ (signal f s).mdc.mode = s.mdc.mode ∧ (signal f s).mdc.outstanding = s.mdc.outstanding ∧ (signal f s).mdc.redrive = s.mdc.redrive ∧ (signal f s).mdc.validating = s.mdc.validating ∧ (signal f s).evu.hotCount = s.evu.hotCount ∧ (signal f s).evu.readDue = s.evu.readDue ∧ (signal f s).axu = s.axu := by
  simp [signal]

@[simp] theorem hotEvent_frame (s : State) :
    (hotEvent s).pending = s.pending ∧ (hotEvent s).now = s.now ∧ (hotEvent s).inReset = s.inReset ∧ (hotEvent s).choices = s.choices ∧ (hotEvent s).lnk = s.lnk ∧ (hotEvent s).fwq = s.fwq ∧ (hotEvent s).rtq.queue = s.rtq.queue ∧ (hotEvent s).rtq.response = s.rtq.response ∧ (hotEvent s).rtq.responseHeld = s.rtq.responseHeld ∧ (hotEvent s).rtq.echo = s.rtq.echo ∧ (hotEvent s).rtq.report = s.rtq.report ∧ (hotEvent s).mga = s.mga ∧ (hotEvent s).tbs = s.tbs ∧ (hotEvent s).rev = s.rev ∧ (hotEvent s).ste.st = s.ste.st ∧ (hotEvent s).ste.ident = s.ste.ident ∧ (hotEvent s).ste.snapshot = s.ste.snapshot ∧ (hotEvent s).ste.changing = s.ste.changing ∧ (hotEvent s).ste.landed = s.ste.landed ∧ (hotEvent s).ste.takeAt = s.ste.takeAt ∧ (hotEvent s).ste.grace = s.ste.grace ∧ (hotEvent s).ste.dwell = s.ste.dwell ∧ (hotEvent s).ste.wearFlag = s.ste.wearFlag ∧ (hotEvent s).ste.outcome = s.ste.outcome ∧ (hotEvent s).ste.elapsed = s.ste.elapsed ∧ (hotEvent s).ste.report = s.ste.report ∧ (hotEvent s).ste.settledMark = s.ste.settledMark ∧ (hotEvent s).ste.routes = s.ste.routes ∧ (hotEvent s).ste.serial = s.ste.serial ∧ (hotEvent s).csd = s.csd ∧ (hotEvent s).vfu = s.vfu ∧ (hotEvent s).mdc.mode = s.mdc.mode ∧ (hotEvent s).mdc.outstanding = s.mdc.outstanding ∧ (hotEvent s).mdc.redrive = s.mdc.redrive ∧ (hotEvent s).mdc.validating = s.mdc.validating ∧ (hotEvent s).evu.readDue = s.evu.readDue ∧ (hotEvent s).axu = s.axu := by
  unfold hotEvent; dsimp only; split <;> simp

@[simp] theorem wearEvent_frame (s : State) :
    (wearEvent s).pending = s.pending ∧ (wearEvent s).now = s.now ∧ (wearEvent s).inReset = s.inReset ∧ (wearEvent s).choices = s.choices ∧ (wearEvent s).lnk = s.lnk ∧ (wearEvent s).fwq = s.fwq ∧ (wearEvent s).rtq.queue = s.rtq.queue ∧ (wearEvent s).rtq.response = s.rtq.response ∧ (wearEvent s).rtq.responseHeld = s.rtq.responseHeld ∧ (wearEvent s).rtq.echo = s.rtq.echo ∧ (wearEvent s).rtq.report = s.rtq.report ∧ (wearEvent s).mga = s.mga ∧ (wearEvent s).tbs = s.tbs ∧ (wearEvent s).rev = s.rev ∧ (wearEvent s).ste.st = s.ste.st ∧ (wearEvent s).ste.ident = s.ste.ident ∧ (wearEvent s).ste.snapshot = s.ste.snapshot ∧ (wearEvent s).ste.changing = s.ste.changing ∧ (wearEvent s).ste.landed = s.ste.landed ∧ (wearEvent s).ste.takeAt = s.ste.takeAt ∧ (wearEvent s).ste.grace = s.ste.grace ∧ (wearEvent s).ste.dwell = s.ste.dwell ∧ (wearEvent s).ste.hot = s.ste.hot ∧ (wearEvent s).ste.outcome = s.ste.outcome ∧ (wearEvent s).ste.elapsed = s.ste.elapsed ∧ (wearEvent s).ste.report = s.ste.report ∧ (wearEvent s).ste.settledMark = s.ste.settledMark ∧ (wearEvent s).ste.routes = s.ste.routes ∧ (wearEvent s).ste.serial = s.ste.serial ∧ (wearEvent s).csd = s.csd ∧ (wearEvent s).vfu = s.vfu ∧ (wearEvent s).mdc.mode = s.mdc.mode ∧ (wearEvent s).mdc.outstanding = s.mdc.outstanding ∧ (wearEvent s).mdc.redrive = s.mdc.redrive ∧ (wearEvent s).mdc.validating = s.mdc.validating ∧ (wearEvent s).evu.hotCount = s.evu.hotCount ∧ (wearEvent s).evu.readDue = s.evu.readDue ∧ (wearEvent s).axu = s.axu := by
  unfold wearEvent; dsimp only; split <;> simp

@[simp] theorem clearFlags_frame (m : BitVec 16) (s : State) :
    (clearFlags m s).pending = s.pending ∧ (clearFlags m s).now = s.now ∧ (clearFlags m s).inReset = s.inReset ∧ (clearFlags m s).choices = s.choices ∧ (clearFlags m s).lnk = s.lnk ∧ (clearFlags m s).fwq = s.fwq ∧ (clearFlags m s).rtq.queue = s.rtq.queue ∧ (clearFlags m s).rtq.response = s.rtq.response ∧ (clearFlags m s).rtq.responseHeld = s.rtq.responseHeld ∧ (clearFlags m s).rtq.echo = s.rtq.echo ∧ (clearFlags m s).rtq.report = s.rtq.report ∧ (clearFlags m s).mga = s.mga ∧ (clearFlags m s).tbs = s.tbs ∧ (clearFlags m s).rev = s.rev ∧ (clearFlags m s).ste = s.ste ∧ (clearFlags m s).csd = s.csd ∧ (clearFlags m s).vfu = s.vfu ∧ (clearFlags m s).mdc = s.mdc ∧ (clearFlags m s).evu.sequence = s.evu.sequence ∧ (clearFlags m s).evu.hotCount = s.evu.hotCount ∧ (clearFlags m s).evu.readDue = s.evu.readDue ∧ (clearFlags m s).axu = s.axu := by
  simp [clearFlags]

@[simp] theorem signalIfPresent_frame (f : Flag) (s : State) :
    (signalIfPresent f s).pending = s.pending ∧ (signalIfPresent f s).now = s.now ∧ (signalIfPresent f s).inReset = s.inReset ∧ (signalIfPresent f s).choices = s.choices ∧ (signalIfPresent f s).lnk = s.lnk ∧ (signalIfPresent f s).fwq = s.fwq ∧ (signalIfPresent f s).rtq.queue = s.rtq.queue ∧ (signalIfPresent f s).rtq.response = s.rtq.response ∧ (signalIfPresent f s).rtq.responseHeld = s.rtq.responseHeld ∧ (signalIfPresent f s).rtq.echo = s.rtq.echo ∧ (signalIfPresent f s).rtq.report = s.rtq.report ∧ (signalIfPresent f s).mga = s.mga ∧ (signalIfPresent f s).tbs = s.tbs ∧ (signalIfPresent f s).rev = s.rev ∧ (signalIfPresent f s).ste = s.ste ∧ (signalIfPresent f s).csd = s.csd ∧ (signalIfPresent f s).vfu = s.vfu ∧ (signalIfPresent f s).mdc.mode = s.mdc.mode ∧ (signalIfPresent f s).mdc.outstanding = s.mdc.outstanding ∧ (signalIfPresent f s).mdc.redrive = s.mdc.redrive ∧ (signalIfPresent f s).mdc.validating = s.mdc.validating ∧ (signalIfPresent f s).evu.hotCount = s.evu.hotCount ∧ (signalIfPresent f s).evu.readDue = s.evu.readDue ∧ (signalIfPresent f s).axu = s.axu := by
  unfold signalIfPresent; split <;> simp

@[simp] theorem readLevelConditions_frame (s : State) :
    (readLevelConditions s).pending = s.pending ∧ (readLevelConditions s).now = s.now ∧ (readLevelConditions s).inReset = s.inReset ∧ (readLevelConditions s).choices = s.choices ∧ (readLevelConditions s).lnk = s.lnk ∧ (readLevelConditions s).fwq = s.fwq ∧ (readLevelConditions s).rtq.queue = s.rtq.queue ∧ (readLevelConditions s).rtq.response = s.rtq.response ∧ (readLevelConditions s).rtq.responseHeld = s.rtq.responseHeld ∧ (readLevelConditions s).rtq.echo = s.rtq.echo ∧ (readLevelConditions s).rtq.report = s.rtq.report ∧ (readLevelConditions s).mga = s.mga ∧ (readLevelConditions s).tbs = s.tbs ∧ (readLevelConditions s).rev = s.rev ∧ (readLevelConditions s).ste = s.ste ∧ (readLevelConditions s).csd = s.csd ∧ (readLevelConditions s).vfu = s.vfu ∧ (readLevelConditions s).mdc.mode = s.mdc.mode ∧ (readLevelConditions s).mdc.outstanding = s.mdc.outstanding ∧ (readLevelConditions s).mdc.redrive = s.mdc.redrive ∧ (readLevelConditions s).mdc.validating = s.mdc.validating ∧ (readLevelConditions s).evu.hotCount = s.evu.hotCount ∧ (readLevelConditions s).axu = s.axu := by
  unfold readLevelConditions
  repeat' split
  all_goals simp

@[simp] theorem setMode_frame (m : Mode) (s : State) :
    (setMode m s).pending = s.pending ∧ (setMode m s).now = s.now ∧ (setMode m s).inReset = s.inReset ∧ (setMode m s).choices = s.choices ∧ (setMode m s).lnk = s.lnk ∧ (setMode m s).fwq = s.fwq ∧ (setMode m s).rtq.queue = s.rtq.queue ∧ (setMode m s).rtq.response = s.rtq.response ∧ (setMode m s).rtq.responseHeld = s.rtq.responseHeld ∧ (setMode m s).rtq.echo = s.rtq.echo ∧ (setMode m s).rtq.report = s.rtq.report ∧ (setMode m s).mga = s.mga ∧ (setMode m s).tbs = s.tbs ∧ (setMode m s).rev = s.rev ∧ (setMode m s).ste = s.ste ∧ (setMode m s).csd = s.csd ∧ (setMode m s).vfu = s.vfu ∧ (setMode m s).mdc.outstanding = s.mdc.outstanding ∧ (setMode m s).mdc.redrive = s.mdc.redrive ∧ (setMode m s).mdc.validating = s.mdc.validating ∧ (setMode m s).mdc.trips = s.mdc.trips ∧ (setMode m s).evu = s.evu ∧ (setMode m s).axu = s.axu := by
  simp [setMode]

end Sys2Proof.Machine
end

