-- ==== Sys2Proof/Laws/Coil.lean ====
section
/-! SUPPORT. What a launch pass can do, said once: `Passed s t` relates the states before and after any part of a pass. -/

namespace Sys2Proof.Machine

/-- From `s` to `t` nothing happened but launches of pending elements and what a launch signals. -/
structure Passed (s t : State) : Prop where
  pending : t.pending = s.pending
  now : t.now = s.now
  inReset : t.inReset = s.inReset
  choices : t.choices = s.choices
  lnk : t.lnk = s.lnk
  fwq : t.fwq = s.fwq
  mga : t.mga = s.mga
  rev : t.rev = s.rev
  vfu : t.vfu = s.vfu
  axu : t.axu = s.axu
  mdc : t.mdc = s.mdc
  outbox : t.rtq = { s.rtq with alert := t.rtq.alert }
  tables : t.tbs = { s.tbs with wear := t.tbs.wear }
  engine : t.ste = { s.ste with hot := t.ste.hot, wearFlag := t.ste.wearFlag }
  recorded : t.csd.recorded = s.csd.recorded
  recovery : t.csd.recoveryUntil = s.csd.recoveryUntil ∧ t.csd.latch = s.csd.latch ∧
    t.csd.recoveryActive = s.csd.recoveryActive
  lockouts : t.csd.lockoutOver = s.csd.lockoutOver
  supply : t.csd.supply = s.csd.supply
  passDue : t.csd.passDue = s.csd.passDue
  drive : t.csd.drive = s.csd.drive
  flights : ∀ (i : Elem) (p : Pulse), s.csd.pulses[i] = some p → t.csd.pulses[i] = some p
  launches : ∀ (i : Elem) (p : Pulse), t.csd.pulses[i] = some p → s.csd.pulses[i] ≠ some p →
    s.csd.pulses[i] = none ∧ s.csd.supply = .good ∧ p.launchAt = s.now ∧ p.phase = .driving ∧
      p.origin = s.csd.recorded[i] ∧ s.csd.pending[i] = some p.target ∧ t.csd.pending[i] = none
  worn : ∀ i : Elem, t.csd.pulses[i] = s.csd.pulses[i] →
    t.tbs.wear[i] = s.tbs.wear[i] ∧ t.csd.lastLaunch[i] = s.csd.lastLaunch[i] ∧ t.csd.pending[i] = s.csd.pending[i]
  flags : ∀ i : Nat, s.evu.latched.getLsbD i = true → t.evu.latched.getLsbD i = true
  levels : t.evu.readDue = s.evu.readDue

/-- Where the coil and the tables stand, the relation asks only for the rest. -/
theorem Passed.ofSame {s t : State} (coil : t.csd = s.csd) (table : t.tbs = s.tbs) (pending : t.pending = s.pending)
    (now : t.now = s.now) (inReset : t.inReset = s.inReset) (choices : t.choices = s.choices) (lnk : t.lnk = s.lnk)
    (fwq : t.fwq = s.fwq) (mga : t.mga = s.mga) (rev : t.rev = s.rev) (vfu : t.vfu = s.vfu) (axu : t.axu = s.axu)
    (mdc : t.mdc = s.mdc) (outbox : t.rtq = { s.rtq with alert := t.rtq.alert })
    (engine : t.ste = { s.ste with hot := t.ste.hot, wearFlag := t.ste.wearFlag })
    (flags : ∀ i : Nat, s.evu.latched.getLsbD i = true → t.evu.latched.getLsbD i = true)
    (levels : t.evu.readDue = s.evu.readDue) : Passed s t where
  pending := pending
  now := now
  inReset := inReset
  choices := choices
  lnk := lnk
  fwq := fwq
  mga := mga
  rev := rev
  vfu := vfu
  axu := axu
  mdc := mdc
  outbox := outbox
  tables := by rw [table]
  engine := engine
  recorded := by rw [coil]
  recovery := by simp [coil]
  lockouts := by rw [coil]
  supply := by rw [coil]
  passDue := by rw [coil]
  drive := by rw [coil]
  flights i p h := by rw [coil]; exact h
  launches i p h n := by rw [coil] at h; exact absurd h n
  worn i _ := by simp [coil, table]
  flags := flags
  levels := levels

theorem Passed.refl (s : State) : Passed s s :=
  .ofSame rfl rfl rfl rfl rfl rfl rfl rfl rfl rfl rfl rfl rfl rfl rfl (fun _ h => h) rfl

theorem Passed.setHot (s : State) (b : Bool) : Passed s { s with ste.hot := b } :=
  .ofSame rfl rfl rfl rfl rfl rfl rfl rfl rfl rfl rfl rfl rfl rfl rfl (fun _ h => h) rfl

theorem Passed.setWear (s : State) (b : Bool) : Passed s { s with ste.wearFlag := b } :=
  .ofSame rfl rfl rfl rfl rfl rfl rfl rfl rfl rfl rfl rfl rfl rfl rfl (fun _ h => h) rfl

theorem Passed.setCount (s : State) (n : Nat) : Passed s { s with evu.hotCount := n } :=
  .ofSame rfl rfl rfl rfl rfl rfl rfl rfl rfl rfl rfl rfl rfl rfl rfl (fun _ h => h) rfl

theorem Passed.trans {s t u : State} (h : Passed s t) (g : Passed t u) : Passed s u where
  pending := g.pending.trans h.pending
  now := g.now.trans h.now
  inReset := g.inReset.trans h.inReset
  choices := g.choices.trans h.choices
  lnk := g.lnk.trans h.lnk
  fwq := g.fwq.trans h.fwq
  mga := g.mga.trans h.mga
  rev := g.rev.trans h.rev
  vfu := g.vfu.trans h.vfu
  axu := g.axu.trans h.axu
  mdc := g.mdc.trans h.mdc
  outbox := by rw [g.outbox, h.outbox]
  tables := by rw [g.tables, h.tables]
  engine := by rw [g.engine, h.engine]
  recorded := g.recorded.trans h.recorded
  recovery := ⟨g.recovery.1.trans h.recovery.1, g.recovery.2.1.trans h.recovery.2.1,
    g.recovery.2.2.trans h.recovery.2.2⟩
  lockouts := g.lockouts.trans h.lockouts
  supply := g.supply.trans h.supply
  passDue := g.passDue.trans h.passDue
  drive := g.drive.trans h.drive
  flights i p e := g.flights i p (h.flights i p e)
  launches i p e n := by
    by_cases m : t.csd.pulses[i] = some p
    · have a := h.launches i p m n
      have b := (g.worn i (e.trans m.symm)).2.2
      exact ⟨a.1, a.2.1, a.2.2.1, a.2.2.2.1, a.2.2.2.2.1, a.2.2.2.2.2.1, b.trans a.2.2.2.2.2.2⟩
    · have b := g.launches i p e m
      have k : s.csd.pulses[i] = none := by
        cases q : s.csd.pulses[i] with
        | none => rfl
        | some q' => rw [h.flights i q' q] at b; cases b.1
      have a := h.worn i (by rw [b.1, k])
      exact ⟨k, h.supply ▸ b.2.1, b.2.2.1.trans h.now, b.2.2.2.1, by rw [b.2.2.2.2.1]; simp [h.recorded],
        by rw [← a.2.2]; exact b.2.2.2.2.2.1, b.2.2.2.2.2.2⟩
  worn i e := by
    have k : t.csd.pulses[i] = s.csd.pulses[i] := by
      cases q : s.csd.pulses[i] with
      | some p => exact h.flights i p q
      | none =>
        cases m : t.csd.pulses[i] with
        | none => rfl
        | some p => rw [g.flights i p m, q] at e; cases e
    have a := h.worn i k
    have b := g.worn i (e.trans k.symm)
    exact ⟨b.1.trans a.1, b.2.1.trans a.2.1, b.2.2.trans a.2.2⟩
  flags i e := g.flags i (h.flags i e)
  levels := g.levels.trans h.levels

/-- A flag once latched stays latched through a signal. -/
theorem signal_flags (f : Flag) (s : State) (i : Nat) (h : s.evu.latched.getLsbD i = true) :
    (signal f s).evu.latched.getLsbD i = true := by
  unfold signal latchFlag
  split
  · simpa using h
  · simp; exact .inl h

theorem signal_readDue (f : Flag) (s : State) : (signal f s).evu.readDue = s.evu.readDue := by
  unfold signal latchFlag
  split
  · simp
  · unfold raiseAlert
    repeat' split
    all_goals simp

/-- A signal changes nothing of the Return Queue but the ALERT outbox. -/
theorem signal_rtq (f : Flag) (s : State) : (signal f s).rtq = { s.rtq with alert := (signal f s).rtq.alert } := by
  have a : ∀ x : State, (requestTripOf f x).rtq = x.rtq := by simp
  have b : ∀ x : State, (raiseAlert f x).rtq = { x.rtq with alert := (raiseAlert f x).rtq.alert } := by
    intro x; unfold raiseAlert; repeat' split
    all_goals rfl
  unfold signal latchFlag
  rw [a]
  split
  · rfl
  · exact b _

/-- A signal of a flag that is no trip flag, as a pass can make it. -/
theorem signal_passed (f : Flag) (s : State) (h : f.trip = none) : Passed s (signal f s) := by
  have m : (signal f s).mdc = s.mdc := by simp [signal, requestTripOf, h]
  have e : (signal f s).ste = s.ste := by simp
  exact .ofSame (by simp) (by simp) (by simp) (by simp) (by simp) (by simp) (by simp) (by simp) (by simp) (by simp)
    (by simp) (by simp) m (signal_rtq f s) (by rw [e]) (signal_flags f s) (signal_readDue f s)

theorem hotEvent_passed (s : State) : Passed s (hotEvent s) := by
  have b := (Passed.setCount s (countUp s.evu.hotCount)).trans (signal_passed .hot _ rfl)
  unfold hotEvent
  dsimp only
  split
  · exact b.trans (.setHot _ true)
  · exact b

theorem wearEvent_passed (s : State) : Passed s (wearEvent s) := by
  have b := signal_passed .wear s rfl
  unfold wearEvent
  dsimp only
  split
  · exact b.trans (.setWear _ true)
  · exact b

/-- One launch, as a pass makes it. -/
theorem launch_passed (d : Drive) (e : Elem) (c : ClassRec) (q : Pos) (s : State)
    (hp : s.csd.pending[e] = some q) (hn : s.csd.pulses[e] = none) (hs : s.csd.supply = .good) :
    Passed s (launch d e c q s) := by
  have a : Passed s
      { s with
        csd.pending := s.csd.pending.set e none
        csd.pulses := s.csd.pulses.set e (some (newPulse s d e c q))
        csd.lastLaunch := s.csd.lastLaunch.set e (some s.now)
        tbs.wear := s.tbs.wear.set e (min (s.tbs.wear[e] + 1) Config.wearCap) } := by
    constructor <;> try simp
    · intro i p h
      by_cases k : e = i
      · subst k; simp_all
      · have : e.val ≠ i.val := fun x => k (Fin.ext x)
        rw [Vector.getElem_set_ne _ _ this]; exact h
    · intro i p h n
      by_cases k : e = i
      · subst k
        simp at h
        subst h
        exact ⟨hn, hs, rfl, rfl, rfl, hp, by simp⟩
      · have : e.val ≠ i.val := fun x => k (Fin.ext x)
        rw [Vector.getElem_set_ne _ _ this] at h
        exact absurd h n
    · intro i h
      by_cases k : e = i
      · subst k; simp at h; simp_all
      · have : e.val ≠ i.val := fun x => k (Fin.ext x)
        simp [Vector.getElem_set_ne, this]
  have b : Passed s (countLaunch e c
      { s with
        csd.pending := s.csd.pending.set e none
        csd.pulses := s.csd.pulses.set e (some (newPulse s d e c q))
        csd.lastLaunch := s.csd.lastLaunch.set e (some s.now) }) := by
    unfold countLaunch
    dsimp only
    split
    · exact a.trans (wearEvent_passed _)
    · exact a
  unfold launch
  dsimp only
  split
  · exact b.trans (hotEvent_passed _)
  · exact b

/-- What an eligible element is: at rest, with the supply good (R72). -/
theorem eligible_rest {s : State} {e : Elem} {c : ClassRec} (h : eligible s e c = true) :
    s.csd.pulses[e] = none ∧ s.csd.supply = .good := by
  simp only [eligible, Bool.and_eq_true] at h
  refine ⟨?_, by simpa using h.2⟩
  have := h.1.1.2
  simpa [Csd.inTransit] using this

theorem considerLaunch_passed (d : Drive) (s : State) (e : Elem) : Passed s (considerLaunch d s e) := by
  unfold considerLaunch
  split
  · rename_i q c hq hc
    split
    · rename_i h
      exact launch_passed d e c q s hq (eligible_rest h).1 (eligible_rest h).2
    · exact Passed.refl s
  · exact Passed.refl s

theorem foldLaunch_passed (d : Drive) (l : List Elem) (s : State) : Passed s (l.foldl (considerLaunch d) s) := by
  induction l generalizing s with
  | nil => exact Passed.refl s
  | cons e l ih => exact (considerLaunch_passed d s e).trans (ih _)

/-- What a launch pass can do: launches, and the drive is forgotten with the last pending entry. -/
structure AfterPass (s t : State) : Prop where
  done : t.csd.passDue = false
  passed : ∃ u, Passed { s with csd.passDue := false } u ∧ (t = u ∨ t = { u with csd.drive := none })

theorem launchPass_after (s : State) : AfterPass s (launchPass s) := by
  unfold launchPass
  dsimp only
  split
  · exact ⟨rfl, _, Passed.refl _, .inl rfl⟩
  · rename_i d hd
    have h := foldLaunch_passed d allElems { s with csd.passDue := false }
    generalize allElems.foldl (considerLaunch d) { s with csd.passDue := false } = u at h
    unfold settleDrive
    split
    · exact ⟨h.passDue, u, h, .inr rfl⟩
    · exact ⟨h.passDue, u, h, .inl rfl⟩

end Sys2Proof.Machine
end

