-- ==== Sys2Proof/Laws/Link.lean ====
section
/-! SUPPORT. What the operations of the chain link, the queues and the evaluations leave alone: one frame lemma for each operation, true for every state. -/

namespace Sys2Proof.Machine

@[simp] theorem startEvaluation_frame (s : State) :
    (startEvaluation s).pending = s.pending ∧ (startEvaluation s).now = s.now ∧ (startEvaluation s).inReset = s.inReset ∧ (startEvaluation s).choices = s.choices ∧ (startEvaluation s).lnk = s.lnk ∧ (startEvaluation s).fwq = s.fwq ∧ (startEvaluation s).rtq = s.rtq ∧ (startEvaluation s).mga = s.mga ∧ (startEvaluation s).tbs = s.tbs ∧ (startEvaluation s).rev.route = s.rev.route ∧ (startEvaluation s).ste = s.ste ∧ (startEvaluation s).csd = s.csd ∧ (startEvaluation s).vfu = s.vfu ∧ (startEvaluation s).mdc = s.mdc ∧ (startEvaluation s).evu = s.evu ∧ (startEvaluation s).axu = s.axu := by
  simp [startEvaluation]

theorem restartEvaluation_frame (s : State) {t : State} (h : restartEvaluation s = some t) :
    t.pending = s.pending ∧ t.now = s.now ∧ t.inReset = s.inReset ∧ t.choices = s.choices ∧ t.lnk = s.lnk ∧ t.fwq = s.fwq ∧ t.rtq = s.rtq ∧ t.mga = s.mga ∧ t.tbs = s.tbs ∧ t.rev.route = s.rev.route ∧ t.ste = s.ste ∧ t.csd = s.csd ∧ t.vfu = s.vfu ∧ t.mdc = s.mdc ∧ t.evu = s.evu ∧ t.axu = s.axu := by
  unfold restartEvaluation at h
  split at h <;> simp at h
  simp [← h]

@[simp] theorem sendMark_frame_a (s : State) (m : Mark) :
    ({ s with lnk.a := s.lnk.a.sendMark m }).pending = s.pending ∧ ({ s with lnk.a := s.lnk.a.sendMark m }).now = s.now ∧ ({ s with lnk.a := s.lnk.a.sendMark m }).inReset = s.inReset ∧ ({ s with lnk.a := s.lnk.a.sendMark m }).choices = s.choices ∧ ({ s with lnk.a := s.lnk.a.sendMark m }).lnk.a.link = s.lnk.a.link ∧ ({ s with lnk.a := s.lnk.a.sendMark m }).lnk.a.received = s.lnk.a.received ∧ ({ s with lnk.a := s.lnk.a.sendMark m }).lnk.a.tx = s.lnk.a.tx ∧ ({ s with lnk.a := s.lnk.a.sendMark m }).lnk.a.checkErrors = s.lnk.a.checkErrors ∧ ({ s with lnk.a := s.lnk.a.sendMark m }).lnk.b.link = s.lnk.b.link ∧ ({ s with lnk.a := s.lnk.a.sendMark m }).lnk.b.received = s.lnk.b.received ∧ ({ s with lnk.a := s.lnk.a.sendMark m }).lnk.b.tx = s.lnk.b.tx ∧ ({ s with lnk.a := s.lnk.a.sendMark m }).lnk.b.checkErrors = s.lnk.b.checkErrors ∧ ({ s with lnk.a := s.lnk.a.sendMark m }).lnk.b.wire = s.lnk.b.wire ∧ ({ s with lnk.a := s.lnk.a.sendMark m }).lnk.sentFwd = s.lnk.sentFwd ∧ ({ s with lnk.a := s.lnk.a.sendMark m }).lnk.sentRet = s.lnk.sentRet ∧ ({ s with lnk.a := s.lnk.a.sendMark m }).lnk.addr = s.lnk.addr ∧ ({ s with lnk.a := s.lnk.a.sendMark m }).lnk.margin = s.lnk.margin ∧ ({ s with lnk.a := s.lnk.a.sendMark m }).lnk.sense = s.lnk.sense ∧ ({ s with lnk.a := s.lnk.a.sendMark m }).lnk.fwdDrops = s.lnk.fwdDrops ∧ ({ s with lnk.a := s.lnk.a.sendMark m }).lnk.retDrops = s.lnk.retDrops ∧ ({ s with lnk.a := s.lnk.a.sendMark m }).lnk.urgentDrops = s.lnk.urgentDrops ∧ ({ s with lnk.a := s.lnk.a.sendMark m }).lnk.endDiscards = s.lnk.endDiscards ∧ ({ s with lnk.a := s.lnk.a.sendMark m }).fwq = s.fwq ∧ ({ s with lnk.a := s.lnk.a.sendMark m }).rtq = s.rtq ∧ ({ s with lnk.a := s.lnk.a.sendMark m }).mga = s.mga ∧ ({ s with lnk.a := s.lnk.a.sendMark m }).tbs = s.tbs ∧ ({ s with lnk.a := s.lnk.a.sendMark m }).rev = s.rev ∧ ({ s with lnk.a := s.lnk.a.sendMark m }).ste = s.ste ∧ ({ s with lnk.a := s.lnk.a.sendMark m }).csd = s.csd ∧ ({ s with lnk.a := s.lnk.a.sendMark m }).vfu = s.vfu ∧ ({ s with lnk.a := s.lnk.a.sendMark m }).mdc = s.mdc ∧ ({ s with lnk.a := s.lnk.a.sendMark m }).evu = s.evu ∧ ({ s with lnk.a := s.lnk.a.sendMark m }).axu = s.axu := by
  refine ⟨?_, ?_, ?_, ?_, ?_, ?_, ?_, ?_, ?_, ?_, ?_, ?_, ?_, ?_, ?_, ?_, ?_, ?_, ?_, ?_, ?_, ?_, ?_, ?_, ?_, ?_, ?_, ?_, ?_, ?_, ?_, ?_, ?_⟩ <;>
  (unfold PortState.sendMark; (repeat' split) <;> rfl)

@[simp] theorem sendMark_frame_b (s : State) (m : Mark) :
    ({ s with lnk.b := s.lnk.b.sendMark m }).pending = s.pending ∧ ({ s with lnk.b := s.lnk.b.sendMark m }).now = s.now ∧ ({ s with lnk.b := s.lnk.b.sendMark m }).inReset = s.inReset ∧ ({ s with lnk.b := s.lnk.b.sendMark m }).choices = s.choices ∧ ({ s with lnk.b := s.lnk.b.sendMark m }).lnk.a.link = s.lnk.a.link ∧ ({ s with lnk.b := s.lnk.b.sendMark m }).lnk.a.received = s.lnk.a.received ∧ ({ s with lnk.b := s.lnk.b.sendMark m }).lnk.a.tx = s.lnk.a.tx ∧ ({ s with lnk.b := s.lnk.b.sendMark m }).lnk.a.checkErrors = s.lnk.a.checkErrors ∧ ({ s with lnk.b := s.lnk.b.sendMark m }).lnk.a.wire = s.lnk.a.wire ∧ ({ s with lnk.b := s.lnk.b.sendMark m }).lnk.b.link = s.lnk.b.link ∧ ({ s with lnk.b := s.lnk.b.sendMark m }).lnk.b.received = s.lnk.b.received ∧ ({ s with lnk.b := s.lnk.b.sendMark m }).lnk.b.tx = s.lnk.b.tx ∧ ({ s with lnk.b := s.lnk.b.sendMark m }).lnk.b.checkErrors = s.lnk.b.checkErrors ∧ ({ s with lnk.b := s.lnk.b.sendMark m }).lnk.sentFwd = s.lnk.sentFwd ∧ ({ s with lnk.b := s.lnk.b.sendMark m }).lnk.sentRet = s.lnk.sentRet ∧ ({ s with lnk.b := s.lnk.b.sendMark m }).lnk.addr = s.lnk.addr ∧ ({ s with lnk.b := s.lnk.b.sendMark m }).lnk.margin = s.lnk.margin ∧ ({ s with lnk.b := s.lnk.b.sendMark m }).lnk.sense = s.lnk.sense ∧ ({ s with lnk.b := s.lnk.b.sendMark m }).lnk.fwdDrops = s.lnk.fwdDrops ∧ ({ s with lnk.b := s.lnk.b.sendMark m }).lnk.retDrops = s.lnk.retDrops ∧ ({ s with lnk.b := s.lnk.b.sendMark m }).lnk.urgentDrops = s.lnk.urgentDrops ∧ ({ s with lnk.b := s.lnk.b.sendMark m }).lnk.endDiscards = s.lnk.endDiscards ∧ ({ s with lnk.b := s.lnk.b.sendMark m }).fwq = s.fwq ∧ ({ s with lnk.b := s.lnk.b.sendMark m }).rtq = s.rtq ∧ ({ s with lnk.b := s.lnk.b.sendMark m }).mga = s.mga ∧ ({ s with lnk.b := s.lnk.b.sendMark m }).tbs = s.tbs ∧ ({ s with lnk.b := s.lnk.b.sendMark m }).rev = s.rev ∧ ({ s with lnk.b := s.lnk.b.sendMark m }).ste = s.ste ∧ ({ s with lnk.b := s.lnk.b.sendMark m }).csd = s.csd ∧ ({ s with lnk.b := s.lnk.b.sendMark m }).vfu = s.vfu ∧ ({ s with lnk.b := s.lnk.b.sendMark m }).mdc = s.mdc ∧ ({ s with lnk.b := s.lnk.b.sendMark m }).evu = s.evu ∧ ({ s with lnk.b := s.lnk.b.sendMark m }).axu = s.axu := by
  refine ⟨?_, ?_, ?_, ?_, ?_, ?_, ?_, ?_, ?_, ?_, ?_, ?_, ?_, ?_, ?_, ?_, ?_, ?_, ?_, ?_, ?_, ?_, ?_, ?_, ?_, ?_, ?_, ?_, ?_, ?_, ?_, ?_, ?_⟩ <;>
  (unfold PortState.sendMark; (repeat' split) <;> rfl)

@[simp] theorem State.setPort_frame (s : State) (p : Port) (x : PortState) :
    (s.setPort p x).pending = s.pending ∧ (s.setPort p x).now = s.now ∧ (s.setPort p x).inReset = s.inReset ∧ (s.setPort p x).choices = s.choices ∧ (s.setPort p x).lnk.sentFwd = s.lnk.sentFwd ∧ (s.setPort p x).lnk.sentRet = s.lnk.sentRet ∧ (s.setPort p x).lnk.addr = s.lnk.addr ∧ (s.setPort p x).lnk.margin = s.lnk.margin ∧ (s.setPort p x).lnk.sense = s.lnk.sense ∧ (s.setPort p x).lnk.fwdDrops = s.lnk.fwdDrops ∧ (s.setPort p x).lnk.retDrops = s.lnk.retDrops ∧ (s.setPort p x).lnk.urgentDrops = s.lnk.urgentDrops ∧ (s.setPort p x).lnk.endDiscards = s.lnk.endDiscards ∧ (s.setPort p x).fwq = s.fwq ∧ (s.setPort p x).rtq = s.rtq ∧ (s.setPort p x).mga = s.mga ∧ (s.setPort p x).tbs = s.tbs ∧ (s.setPort p x).rev = s.rev ∧ (s.setPort p x).ste = s.ste ∧ (s.setPort p x).csd = s.csd ∧ (s.setPort p x).vfu = s.vfu ∧ (s.setPort p x).mdc = s.mdc ∧ (s.setPort p x).evu = s.evu ∧ (s.setPort p x).axu = s.axu := by
  cases p <;> simp [State.setPort]

@[simp] theorem compareFwd_frame (s : State) :
    (compareFwd s).pending = s.pending ∧ (compareFwd s).now = s.now ∧ (compareFwd s).inReset = s.inReset ∧ (compareFwd s).choices = s.choices ∧ (compareFwd s).lnk.a.link = s.lnk.a.link ∧ (compareFwd s).lnk.a.received = s.lnk.a.received ∧ (compareFwd s).lnk.a.tx = s.lnk.a.tx ∧ (compareFwd s).lnk.a.checkErrors = s.lnk.a.checkErrors ∧ (compareFwd s).lnk.b.link = s.lnk.b.link ∧ (compareFwd s).lnk.b.received = s.lnk.b.received ∧ (compareFwd s).lnk.b.tx = s.lnk.b.tx ∧ (compareFwd s).lnk.b.checkErrors = s.lnk.b.checkErrors ∧ (compareFwd s).lnk.b.wire = s.lnk.b.wire ∧ (compareFwd s).lnk.sentRet = s.lnk.sentRet ∧ (compareFwd s).lnk.addr = s.lnk.addr ∧ (compareFwd s).lnk.margin = s.lnk.margin ∧ (compareFwd s).lnk.sense = s.lnk.sense ∧ (compareFwd s).lnk.fwdDrops = s.lnk.fwdDrops ∧ (compareFwd s).lnk.retDrops = s.lnk.retDrops ∧ (compareFwd s).lnk.urgentDrops = s.lnk.urgentDrops ∧ (compareFwd s).lnk.endDiscards = s.lnk.endDiscards ∧ (compareFwd s).fwq = s.fwq ∧ (compareFwd s).rtq = s.rtq ∧ (compareFwd s).mga = s.mga ∧ (compareFwd s).tbs = s.tbs ∧ (compareFwd s).rev = s.rev ∧ (compareFwd s).ste = s.ste ∧ (compareFwd s).csd = s.csd ∧ (compareFwd s).vfu = s.vfu ∧ (compareFwd s).mdc = s.mdc ∧ (compareFwd s).evu = s.evu ∧ (compareFwd s).axu = s.axu := by
  refine ⟨?_, ?_, ?_, ?_, ?_, ?_, ?_, ?_, ?_, ?_, ?_, ?_, ?_, ?_, ?_, ?_, ?_, ?_, ?_, ?_, ?_, ?_, ?_, ?_, ?_, ?_, ?_, ?_, ?_, ?_, ?_, ?_⟩ <;>
  (unfold compareFwd PortState.sendMark; dsimp only; (repeat' split) <;> rfl)

@[simp] theorem compareRet_frame (s : State) :
    (compareRet s).pending = s.pending ∧ (compareRet s).now = s.now ∧ (compareRet s).inReset = s.inReset ∧ (compareRet s).choices = s.choices ∧ (compareRet s).lnk.a.link = s.lnk.a.link ∧ (compareRet s).lnk.a.received = s.lnk.a.received ∧ (compareRet s).lnk.a.tx = s.lnk.a.tx ∧ (compareRet s).lnk.a.checkErrors = s.lnk.a.checkErrors ∧ (compareRet s).lnk.a.wire = s.lnk.a.wire ∧ (compareRet s).lnk.b.link = s.lnk.b.link ∧ (compareRet s).lnk.b.received = s.lnk.b.received ∧ (compareRet s).lnk.b.tx = s.lnk.b.tx ∧ (compareRet s).lnk.b.checkErrors = s.lnk.b.checkErrors ∧ (compareRet s).lnk.sentFwd = s.lnk.sentFwd ∧ (compareRet s).lnk.addr = s.lnk.addr ∧ (compareRet s).lnk.margin = s.lnk.margin ∧ (compareRet s).lnk.sense = s.lnk.sense ∧ (compareRet s).lnk.fwdDrops = s.lnk.fwdDrops ∧ (compareRet s).lnk.retDrops = s.lnk.retDrops ∧ (compareRet s).lnk.urgentDrops = s.lnk.urgentDrops ∧ (compareRet s).lnk.endDiscards = s.lnk.endDiscards ∧ (compareRet s).fwq = s.fwq ∧ (compareRet s).rtq = s.rtq ∧ (compareRet s).mga = s.mga ∧ (compareRet s).tbs = s.tbs ∧ (compareRet s).rev = s.rev ∧ (compareRet s).ste = s.ste ∧ (compareRet s).csd = s.csd ∧ (compareRet s).vfu = s.vfu ∧ (compareRet s).mdc = s.mdc ∧ (compareRet s).evu = s.evu ∧ (compareRet s).axu = s.axu := by
  refine ⟨?_, ?_, ?_, ?_, ?_, ?_, ?_, ?_, ?_, ?_, ?_, ?_, ?_, ?_, ?_, ?_, ?_, ?_, ?_, ?_, ?_, ?_, ?_, ?_, ?_, ?_, ?_, ?_, ?_, ?_, ?_, ?_⟩ <;>
  (unfold compareRet PortState.sendMark; dsimp only; (repeat' split) <;> rfl)

@[simp] theorem appendFwd_frame (f : Frame) (s : State) :
    (appendFwd f s).pending = s.pending ∧ (appendFwd f s).now = s.now ∧ (appendFwd f s).inReset = s.inReset ∧ (appendFwd f s).choices = s.choices ∧ (appendFwd f s).lnk.a.link = s.lnk.a.link ∧ (appendFwd f s).lnk.a.received = s.lnk.a.received ∧ (appendFwd f s).lnk.a.tx = s.lnk.a.tx ∧ (appendFwd f s).lnk.a.checkErrors = s.lnk.a.checkErrors ∧ (appendFwd f s).lnk.b.link = s.lnk.b.link ∧ (appendFwd f s).lnk.b.received = s.lnk.b.received ∧ (appendFwd f s).lnk.b.tx = s.lnk.b.tx ∧ (appendFwd f s).lnk.b.checkErrors = s.lnk.b.checkErrors ∧ (appendFwd f s).lnk.b.wire = s.lnk.b.wire ∧ (appendFwd f s).lnk.sentRet = s.lnk.sentRet ∧ (appendFwd f s).lnk.addr = s.lnk.addr ∧ (appendFwd f s).lnk.margin = s.lnk.margin ∧ (appendFwd f s).lnk.sense = s.lnk.sense ∧ (appendFwd f s).lnk.fwdDrops = s.lnk.fwdDrops ∧ (appendFwd f s).lnk.retDrops = s.lnk.retDrops ∧ (appendFwd f s).lnk.urgentDrops = s.lnk.urgentDrops ∧ (appendFwd f s).lnk.endDiscards = s.lnk.endDiscards ∧ (appendFwd f s).fwq.slot = s.fwq.slot ∧ (appendFwd f s).rtq = s.rtq ∧ (appendFwd f s).mga = s.mga ∧ (appendFwd f s).tbs = s.tbs ∧ (appendFwd f s).rev = s.rev ∧ (appendFwd f s).ste = s.ste ∧ (appendFwd f s).csd = s.csd ∧ (appendFwd f s).vfu = s.vfu ∧ (appendFwd f s).mdc = s.mdc ∧ (appendFwd f s).evu = s.evu ∧ (appendFwd f s).axu = s.axu := by
  simp [appendFwd]

@[simp] theorem departFwd_frame (s : State) :
    (departFwd s).pending = s.pending ∧ (departFwd s).now = s.now ∧ (departFwd s).inReset = s.inReset ∧ (departFwd s).choices = s.choices ∧ (departFwd s).lnk.a.link = s.lnk.a.link ∧ (departFwd s).lnk.a.received = s.lnk.a.received ∧ (departFwd s).lnk.a.tx = s.lnk.a.tx ∧ (departFwd s).lnk.a.checkErrors = s.lnk.a.checkErrors ∧ (departFwd s).lnk.b.link = s.lnk.b.link ∧ (departFwd s).lnk.b.received = s.lnk.b.received ∧ (departFwd s).lnk.b.tx = s.lnk.b.tx ∧ (departFwd s).lnk.b.checkErrors = s.lnk.b.checkErrors ∧ (departFwd s).lnk.b.wire = s.lnk.b.wire ∧ (departFwd s).lnk.sentRet = s.lnk.sentRet ∧ (departFwd s).lnk.addr = s.lnk.addr ∧ (departFwd s).lnk.margin = s.lnk.margin ∧ (departFwd s).lnk.sense = s.lnk.sense ∧ (departFwd s).lnk.fwdDrops = s.lnk.fwdDrops ∧ (departFwd s).lnk.retDrops = s.lnk.retDrops ∧ (departFwd s).lnk.urgentDrops = s.lnk.urgentDrops ∧ (departFwd s).lnk.endDiscards = s.lnk.endDiscards ∧ (departFwd s).fwq.slot = s.fwq.slot ∧ (departFwd s).rtq = s.rtq ∧ (departFwd s).mga = s.mga ∧ (departFwd s).tbs = s.tbs ∧ (departFwd s).rev = s.rev ∧ (departFwd s).ste = s.ste ∧ (departFwd s).csd = s.csd ∧ (departFwd s).vfu = s.vfu ∧ (departFwd s).mdc = s.mdc ∧ (departFwd s).evu = s.evu ∧ (departFwd s).axu = s.axu := by
  simp [departFwd]

@[simp] theorem appendRet_frame (f : Frame) (own : Bool) (s : State) :
    (appendRet f own s).pending = s.pending ∧ (appendRet f own s).now = s.now ∧ (appendRet f own s).inReset = s.inReset ∧ (appendRet f own s).choices = s.choices ∧ (appendRet f own s).lnk.a.link = s.lnk.a.link ∧ (appendRet f own s).lnk.a.received = s.lnk.a.received ∧ (appendRet f own s).lnk.a.tx = s.lnk.a.tx ∧ (appendRet f own s).lnk.a.checkErrors = s.lnk.a.checkErrors ∧ (appendRet f own s).lnk.a.wire = s.lnk.a.wire ∧ (appendRet f own s).lnk.b.link = s.lnk.b.link ∧ (appendRet f own s).lnk.b.received = s.lnk.b.received ∧ (appendRet f own s).lnk.b.tx = s.lnk.b.tx ∧ (appendRet f own s).lnk.b.checkErrors = s.lnk.b.checkErrors ∧ (appendRet f own s).lnk.sentFwd = s.lnk.sentFwd ∧ (appendRet f own s).lnk.addr = s.lnk.addr ∧ (appendRet f own s).lnk.margin = s.lnk.margin ∧ (appendRet f own s).lnk.sense = s.lnk.sense ∧ (appendRet f own s).lnk.fwdDrops = s.lnk.fwdDrops ∧ (appendRet f own s).lnk.retDrops = s.lnk.retDrops ∧ (appendRet f own s).lnk.urgentDrops = s.lnk.urgentDrops ∧ (appendRet f own s).lnk.endDiscards = s.lnk.endDiscards ∧ (appendRet f own s).fwq = s.fwq ∧ (appendRet f own s).rtq.alert = s.rtq.alert ∧ (appendRet f own s).rtq.response = s.rtq.response ∧ (appendRet f own s).rtq.responseHeld = s.rtq.responseHeld ∧ (appendRet f own s).rtq.echo = s.rtq.echo ∧ (appendRet f own s).rtq.report = s.rtq.report ∧ (appendRet f own s).mga = s.mga ∧ (appendRet f own s).tbs = s.tbs ∧ (appendRet f own s).rev = s.rev ∧ (appendRet f own s).ste = s.ste ∧ (appendRet f own s).csd = s.csd ∧ (appendRet f own s).vfu = s.vfu ∧ (appendRet f own s).mdc = s.mdc ∧ (appendRet f own s).evu = s.evu ∧ (appendRet f own s).axu = s.axu := by
  simp [appendRet]

@[simp] theorem departRet_frame (s : State) :
    (departRet s).pending = s.pending ∧ (departRet s).now = s.now ∧ (departRet s).inReset = s.inReset ∧ (departRet s).choices = s.choices ∧ (departRet s).lnk.a.link = s.lnk.a.link ∧ (departRet s).lnk.a.received = s.lnk.a.received ∧ (departRet s).lnk.a.tx = s.lnk.a.tx ∧ (departRet s).lnk.a.checkErrors = s.lnk.a.checkErrors ∧ (departRet s).lnk.a.wire = s.lnk.a.wire ∧ (departRet s).lnk.b.link = s.lnk.b.link ∧ (departRet s).lnk.b.received = s.lnk.b.received ∧ (departRet s).lnk.b.tx = s.lnk.b.tx ∧ (departRet s).lnk.b.checkErrors = s.lnk.b.checkErrors ∧ (departRet s).lnk.sentFwd = s.lnk.sentFwd ∧ (departRet s).lnk.addr = s.lnk.addr ∧ (departRet s).lnk.margin = s.lnk.margin ∧ (departRet s).lnk.sense = s.lnk.sense ∧ (departRet s).lnk.fwdDrops = s.lnk.fwdDrops ∧ (departRet s).lnk.retDrops = s.lnk.retDrops ∧ (departRet s).lnk.urgentDrops = s.lnk.urgentDrops ∧ (departRet s).lnk.endDiscards = s.lnk.endDiscards ∧ (departRet s).fwq = s.fwq ∧ (departRet s).rtq.alert = s.rtq.alert ∧ (departRet s).rtq.response = s.rtq.response ∧ (departRet s).rtq.responseHeld = s.rtq.responseHeld ∧ (departRet s).rtq.echo = s.rtq.echo ∧ (departRet s).rtq.report = s.rtq.report ∧ (departRet s).mga = s.mga ∧ (departRet s).tbs = s.tbs ∧ (departRet s).rev = s.rev ∧ (departRet s).ste = s.ste ∧ (departRet s).csd = s.csd ∧ (departRet s).vfu = s.vfu ∧ (departRet s).mdc = s.mdc ∧ (departRet s).evu = s.evu ∧ (departRet s).axu = s.axu := by
  simp [departRet]

@[simp] theorem setHead_frame (x : FwdEntry) (s : State) :
    (setHead x s).pending = s.pending ∧ (setHead x s).now = s.now ∧ (setHead x s).inReset = s.inReset ∧ (setHead x s).choices = s.choices ∧ (setHead x s).lnk = s.lnk ∧ (setHead x s).fwq.slot = s.fwq.slot ∧ (setHead x s).rtq = s.rtq ∧ (setHead x s).mga = s.mga ∧ (setHead x s).tbs = s.tbs ∧ (setHead x s).rev = s.rev ∧ (setHead x s).ste = s.ste ∧ (setHead x s).csd = s.csd ∧ (setHead x s).vfu = s.vfu ∧ (setHead x s).mdc = s.mdc ∧ (setHead x s).evu = s.evu ∧ (setHead x s).axu = s.axu := by
  simp [setHead]

@[simp] theorem countEndDiscard_frame (s : State) :
    (countEndDiscard s).pending = s.pending ∧ (countEndDiscard s).now = s.now ∧ (countEndDiscard s).inReset = s.inReset ∧ (countEndDiscard s).choices = s.choices ∧ (countEndDiscard s).lnk.a.link = s.lnk.a.link ∧ (countEndDiscard s).lnk.a.received = s.lnk.a.received ∧ (countEndDiscard s).lnk.a.tx = s.lnk.a.tx ∧ (countEndDiscard s).lnk.a.checkErrors = s.lnk.a.checkErrors ∧ (countEndDiscard s).lnk.a.wire = s.lnk.a.wire ∧ (countEndDiscard s).lnk.b.link = s.lnk.b.link ∧ (countEndDiscard s).lnk.b.received = s.lnk.b.received ∧ (countEndDiscard s).lnk.b.tx = s.lnk.b.tx ∧ (countEndDiscard s).lnk.b.checkErrors = s.lnk.b.checkErrors ∧ (countEndDiscard s).lnk.b.wire = s.lnk.b.wire ∧ (countEndDiscard s).lnk.sentFwd = s.lnk.sentFwd ∧ (countEndDiscard s).lnk.sentRet = s.lnk.sentRet ∧ (countEndDiscard s).lnk.addr = s.lnk.addr ∧ (countEndDiscard s).lnk.margin = s.lnk.margin ∧ (countEndDiscard s).lnk.sense = s.lnk.sense ∧ (countEndDiscard s).lnk.fwdDrops = s.lnk.fwdDrops ∧ (countEndDiscard s).lnk.retDrops = s.lnk.retDrops ∧ (countEndDiscard s).lnk.urgentDrops = s.lnk.urgentDrops ∧ (countEndDiscard s).fwq = s.fwq ∧ (countEndDiscard s).rtq = s.rtq ∧ (countEndDiscard s).mga = s.mga ∧ (countEndDiscard s).tbs = s.tbs ∧ (countEndDiscard s).rev = s.rev ∧ (countEndDiscard s).ste = s.ste ∧ (countEndDiscard s).csd = s.csd ∧ (countEndDiscard s).vfu = s.vfu ∧ (countEndDiscard s).mdc = s.mdc ∧ (countEndDiscard s).evu = s.evu ∧ (countEndDiscard s).axu = s.axu := by
  simp [countEndDiscard]

theorem dealAtChainEnd_frame (s : State) {t : State} (h : dealAtChainEnd s = some t) :
    t.pending = s.pending ∧ t.now = s.now ∧ t.inReset = s.inReset ∧ t.choices = s.choices ∧ t.lnk.a.link = s.lnk.a.link ∧ t.lnk.a.received = s.lnk.a.received ∧ t.lnk.a.tx = s.lnk.a.tx ∧ t.lnk.a.checkErrors = s.lnk.a.checkErrors ∧ t.lnk.b.link = s.lnk.b.link ∧ t.lnk.b.received = s.lnk.b.received ∧ t.lnk.b.tx = s.lnk.b.tx ∧ t.lnk.b.checkErrors = s.lnk.b.checkErrors ∧ t.lnk.b.wire = s.lnk.b.wire ∧ t.lnk.sentRet = s.lnk.sentRet ∧ t.lnk.addr = s.lnk.addr ∧ t.lnk.margin = s.lnk.margin ∧ t.lnk.sense = s.lnk.sense ∧ t.lnk.fwdDrops = s.lnk.fwdDrops ∧ t.lnk.retDrops = s.lnk.retDrops ∧ t.lnk.urgentDrops = s.lnk.urgentDrops ∧ t.fwq.slot = s.fwq.slot ∧ t.rtq.queue = s.rtq.queue ∧ t.rtq.alert = s.rtq.alert ∧ t.rtq.response = s.rtq.response ∧ t.rtq.responseHeld = s.rtq.responseHeld ∧ t.rtq.report = s.rtq.report ∧ t.mga = s.mga ∧ t.tbs = s.tbs ∧ t.rev = s.rev ∧ t.ste = s.ste ∧ t.csd = s.csd ∧ t.vfu = s.vfu ∧ t.mdc = s.mdc ∧ t.evu = s.evu ∧ t.axu = s.axu := by
  unfold dealAtChainEnd at h
  repeat' split at h
  all_goals cases h
  all_goals simp

@[simp] theorem releaseHead_frame (x : FwdEntry) (s : State) :
    (releaseHead x s).pending = s.pending ∧ (releaseHead x s).now = s.now ∧ (releaseHead x s).inReset = s.inReset ∧ (releaseHead x s).choices = s.choices ∧ (releaseHead x s).lnk.a.link = s.lnk.a.link ∧ (releaseHead x s).lnk.a.received = s.lnk.a.received ∧ (releaseHead x s).lnk.a.tx = s.lnk.a.tx ∧ (releaseHead x s).lnk.a.checkErrors = s.lnk.a.checkErrors ∧ (releaseHead x s).lnk.b.link = s.lnk.b.link ∧ (releaseHead x s).lnk.b.received = s.lnk.b.received ∧ (releaseHead x s).lnk.b.tx = s.lnk.b.tx ∧ (releaseHead x s).lnk.b.checkErrors = s.lnk.b.checkErrors ∧ (releaseHead x s).lnk.b.wire = s.lnk.b.wire ∧ (releaseHead x s).lnk.sentRet = s.lnk.sentRet ∧ (releaseHead x s).lnk.addr = s.lnk.addr ∧ (releaseHead x s).lnk.margin = s.lnk.margin ∧ (releaseHead x s).lnk.sense = s.lnk.sense ∧ (releaseHead x s).lnk.fwdDrops = s.lnk.fwdDrops ∧ (releaseHead x s).lnk.retDrops = s.lnk.retDrops ∧ (releaseHead x s).lnk.urgentDrops = s.lnk.urgentDrops ∧ (releaseHead x s).fwq.slot = s.fwq.slot ∧ (releaseHead x s).rtq.queue = s.rtq.queue ∧ (releaseHead x s).rtq.alert = s.rtq.alert ∧ (releaseHead x s).rtq.response = s.rtq.response ∧ (releaseHead x s).rtq.responseHeld = s.rtq.responseHeld ∧ (releaseHead x s).rtq.report = s.rtq.report ∧ (releaseHead x s).mga = s.mga ∧ (releaseHead x s).tbs = s.tbs ∧ (releaseHead x s).rev = s.rev ∧ (releaseHead x s).ste = s.ste ∧ (releaseHead x s).csd = s.csd ∧ (releaseHead x s).vfu = s.vfu ∧ (releaseHead x s).mdc = s.mdc ∧ (releaseHead x s).evu = s.evu ∧ (releaseHead x s).axu = s.axu := by
  refine ⟨?_, ?_, ?_, ?_, ?_, ?_, ?_, ?_, ?_, ?_, ?_, ?_, ?_, ?_, ?_, ?_, ?_, ?_, ?_, ?_, ?_, ?_, ?_, ?_, ?_, ?_, ?_, ?_, ?_, ?_, ?_, ?_, ?_, ?_, ?_⟩ <;>
  (unfold releaseHead <;> (try dsimp only) <;> (cases hd : dealAtChainEnd (setHead { x with status := .released } s) with | none => simp | some t => simp [dealAtChainEnd_frame _ hd]))

@[simp] theorem releaseHeld_frame (n : Nat) (s : State) :
    (releaseHeld n s).pending = s.pending ∧ (releaseHeld n s).now = s.now ∧ (releaseHeld n s).inReset = s.inReset ∧ (releaseHeld n s).choices = s.choices ∧ (releaseHeld n s).lnk.a.link = s.lnk.a.link ∧ (releaseHeld n s).lnk.a.received = s.lnk.a.received ∧ (releaseHeld n s).lnk.a.tx = s.lnk.a.tx ∧ (releaseHeld n s).lnk.a.checkErrors = s.lnk.a.checkErrors ∧ (releaseHeld n s).lnk.b.link = s.lnk.b.link ∧ (releaseHeld n s).lnk.b.received = s.lnk.b.received ∧ (releaseHeld n s).lnk.b.tx = s.lnk.b.tx ∧ (releaseHeld n s).lnk.b.checkErrors = s.lnk.b.checkErrors ∧ (releaseHeld n s).lnk.b.wire = s.lnk.b.wire ∧ (releaseHeld n s).lnk.sentRet = s.lnk.sentRet ∧ (releaseHeld n s).lnk.addr = s.lnk.addr ∧ (releaseHeld n s).lnk.margin = s.lnk.margin ∧ (releaseHeld n s).lnk.sense = s.lnk.sense ∧ (releaseHeld n s).lnk.fwdDrops = s.lnk.fwdDrops ∧ (releaseHeld n s).lnk.retDrops = s.lnk.retDrops ∧ (releaseHeld n s).lnk.urgentDrops = s.lnk.urgentDrops ∧ (releaseHeld n s).fwq.slot = s.fwq.slot ∧ (releaseHeld n s).rtq.queue = s.rtq.queue ∧ (releaseHeld n s).rtq.alert = s.rtq.alert ∧ (releaseHeld n s).rtq.response = s.rtq.response ∧ (releaseHeld n s).rtq.responseHeld = s.rtq.responseHeld ∧ (releaseHeld n s).rtq.report = s.rtq.report ∧ (releaseHeld n s).mga = s.mga ∧ (releaseHeld n s).tbs = s.tbs ∧ (releaseHeld n s).rev = s.rev ∧ (releaseHeld n s).ste = s.ste ∧ (releaseHeld n s).csd = s.csd ∧ (releaseHeld n s).vfu = s.vfu ∧ (releaseHeld n s).mdc = s.mdc ∧ (releaseHeld n s).evu = s.evu ∧ (releaseHeld n s).axu = s.axu := by
  unfold releaseHeld
  repeat' split
  all_goals simp

@[simp] theorem discardUrgent_frame (s : State) :
    (discardUrgent s).pending = s.pending ∧ (discardUrgent s).now = s.now ∧ (discardUrgent s).inReset = s.inReset ∧ (discardUrgent s).choices = s.choices ∧ (discardUrgent s).lnk.a.link = s.lnk.a.link ∧ (discardUrgent s).lnk.a.received = s.lnk.a.received ∧ (discardUrgent s).lnk.a.tx = s.lnk.a.tx ∧ (discardUrgent s).lnk.a.checkErrors = s.lnk.a.checkErrors ∧ (discardUrgent s).lnk.a.wire = s.lnk.a.wire ∧ (discardUrgent s).lnk.b.link = s.lnk.b.link ∧ (discardUrgent s).lnk.b.received = s.lnk.b.received ∧ (discardUrgent s).lnk.b.tx = s.lnk.b.tx ∧ (discardUrgent s).lnk.b.checkErrors = s.lnk.b.checkErrors ∧ (discardUrgent s).lnk.b.wire = s.lnk.b.wire ∧ (discardUrgent s).lnk.sentFwd = s.lnk.sentFwd ∧ (discardUrgent s).lnk.sentRet = s.lnk.sentRet ∧ (discardUrgent s).lnk.addr = s.lnk.addr ∧ (discardUrgent s).lnk.margin = s.lnk.margin ∧ (discardUrgent s).lnk.sense = s.lnk.sense ∧ (discardUrgent s).lnk.fwdDrops = s.lnk.fwdDrops ∧ (discardUrgent s).lnk.retDrops = s.lnk.retDrops ∧ (discardUrgent s).lnk.urgentDrops = s.lnk.urgentDrops ∧ (discardUrgent s).fwq.queue = s.fwq.queue ∧ (discardUrgent s).rtq = s.rtq ∧ (discardUrgent s).mga = s.mga ∧ (discardUrgent s).tbs = s.tbs ∧ (discardUrgent s).rev = s.rev ∧ (discardUrgent s).ste = s.ste ∧ (discardUrgent s).csd = s.csd ∧ (discardUrgent s).vfu = s.vfu ∧ (discardUrgent s).mdc = s.mdc ∧ (discardUrgent s).evu = s.evu ∧ (discardUrgent s).axu = s.axu := by
  unfold discardUrgent; split <;> simp

theorem startTxB_frame (s : State) {t : State} (h : startTxB s = some t) :
    t.pending = s.pending ∧ t.now = s.now ∧ t.inReset = s.inReset ∧ t.choices = s.choices ∧ t.lnk.a.link = s.lnk.a.link ∧ t.lnk.a.received = s.lnk.a.received ∧ t.lnk.a.tx = s.lnk.a.tx ∧ t.lnk.a.checkErrors = s.lnk.a.checkErrors ∧ t.lnk.a.wire = s.lnk.a.wire ∧ t.lnk.b.link = s.lnk.b.link ∧ t.lnk.b.received = s.lnk.b.received ∧ t.lnk.b.checkErrors = s.lnk.b.checkErrors ∧ t.lnk.b.wire = s.lnk.b.wire ∧ t.lnk.sentFwd = s.lnk.sentFwd ∧ t.lnk.sentRet = s.lnk.sentRet ∧ t.lnk.addr = s.lnk.addr ∧ t.lnk.margin = s.lnk.margin ∧ t.lnk.sense = s.lnk.sense ∧ t.lnk.fwdDrops = s.lnk.fwdDrops ∧ t.lnk.retDrops = s.lnk.retDrops ∧ t.lnk.urgentDrops = s.lnk.urgentDrops ∧ t.lnk.endDiscards = s.lnk.endDiscards ∧ t.fwq = s.fwq ∧ t.rtq = s.rtq ∧ t.mga = s.mga ∧ t.tbs = s.tbs ∧ t.rev = s.rev ∧ t.ste = s.ste ∧ t.csd = s.csd ∧ t.vfu = s.vfu ∧ t.mdc = s.mdc ∧ t.evu = s.evu ∧ t.axu = s.axu := by
  refine ⟨?_, ?_, ?_, ?_, ?_, ?_, ?_, ?_, ?_, ?_, ?_, ?_, ?_, ?_, ?_, ?_, ?_, ?_, ?_, ?_, ?_, ?_, ?_, ?_, ?_, ?_, ?_, ?_, ?_, ?_, ?_, ?_, ?_⟩ <;>
  (unfold startTxB at h; dsimp only at h; (repeat' split at h) <;> first | (simp at h; done) | (cases h; rfl))

theorem startTxA_frame (s : State) {t : State} (h : startTxA s = some t) :
    t.pending = s.pending ∧ t.now = s.now ∧ t.inReset = s.inReset ∧ t.choices = s.choices ∧ t.lnk.a.link = s.lnk.a.link ∧ t.lnk.a.received = s.lnk.a.received ∧ t.lnk.a.checkErrors = s.lnk.a.checkErrors ∧ t.lnk.a.wire = s.lnk.a.wire ∧ t.lnk.b.link = s.lnk.b.link ∧ t.lnk.b.received = s.lnk.b.received ∧ t.lnk.b.tx = s.lnk.b.tx ∧ t.lnk.b.checkErrors = s.lnk.b.checkErrors ∧ t.lnk.b.wire = s.lnk.b.wire ∧ t.lnk.sentFwd = s.lnk.sentFwd ∧ t.lnk.sentRet = s.lnk.sentRet ∧ t.lnk.addr = s.lnk.addr ∧ t.lnk.margin = s.lnk.margin ∧ t.lnk.sense = s.lnk.sense ∧ t.lnk.fwdDrops = s.lnk.fwdDrops ∧ t.lnk.retDrops = s.lnk.retDrops ∧ t.lnk.urgentDrops = s.lnk.urgentDrops ∧ t.lnk.endDiscards = s.lnk.endDiscards ∧ t.fwq = s.fwq ∧ t.rtq = s.rtq ∧ t.mga = s.mga ∧ t.tbs = s.tbs ∧ t.rev = s.rev ∧ t.ste = s.ste ∧ t.csd = s.csd ∧ t.vfu = s.vfu ∧ t.mdc = s.mdc ∧ t.evu = s.evu ∧ t.axu = s.axu := by
  refine ⟨?_, ?_, ?_, ?_, ?_, ?_, ?_, ?_, ?_, ?_, ?_, ?_, ?_, ?_, ?_, ?_, ?_, ?_, ?_, ?_, ?_, ?_, ?_, ?_, ?_, ?_, ?_, ?_, ?_, ?_, ?_, ?_, ?_⟩ <;>
  (unfold startTxA at h; dsimp only at h; (repeat' split at h) <;> first | (simp at h; done) | (cases h; rfl))

@[simp] theorem vacate_frame (k : TxSource) (s : State) :
    (vacate k s).pending = s.pending ∧ (vacate k s).now = s.now ∧ (vacate k s).inReset = s.inReset ∧ (vacate k s).choices = s.choices ∧ (vacate k s).lnk.a.link = s.lnk.a.link ∧ (vacate k s).lnk.a.received = s.lnk.a.received ∧ (vacate k s).lnk.a.tx = s.lnk.a.tx ∧ (vacate k s).lnk.a.checkErrors = s.lnk.a.checkErrors ∧ (vacate k s).lnk.b.link = s.lnk.b.link ∧ (vacate k s).lnk.b.received = s.lnk.b.received ∧ (vacate k s).lnk.b.tx = s.lnk.b.tx ∧ (vacate k s).lnk.b.checkErrors = s.lnk.b.checkErrors ∧ (vacate k s).lnk.addr = s.lnk.addr ∧ (vacate k s).lnk.margin = s.lnk.margin ∧ (vacate k s).lnk.sense = s.lnk.sense ∧ (vacate k s).lnk.fwdDrops = s.lnk.fwdDrops ∧ (vacate k s).lnk.retDrops = s.lnk.retDrops ∧ (vacate k s).lnk.urgentDrops = s.lnk.urgentDrops ∧ (vacate k s).lnk.endDiscards = s.lnk.endDiscards ∧ (vacate k s).rtq.alert = s.rtq.alert ∧ (vacate k s).rtq.response = s.rtq.response ∧ (vacate k s).rtq.responseHeld = s.rtq.responseHeld ∧ (vacate k s).rtq.echo = s.rtq.echo ∧ (vacate k s).rtq.report = s.rtq.report ∧ (vacate k s).mga = s.mga ∧ (vacate k s).tbs = s.tbs ∧ (vacate k s).rev = s.rev ∧ (vacate k s).ste = s.ste ∧ (vacate k s).csd = s.csd ∧ (vacate k s).vfu = s.vfu ∧ (vacate k s).mdc = s.mdc ∧ (vacate k s).evu = s.evu ∧ (vacate k s).axu = s.axu := by
  unfold vacate; split <;> simp

@[simp] theorem endTransmission_frame (p : Port) (s : State) :
    (endTransmission p s).pending = s.pending ∧ (endTransmission p s).now = s.now ∧ (endTransmission p s).inReset = s.inReset ∧ (endTransmission p s).choices = s.choices ∧ (endTransmission p s).lnk.a.link = s.lnk.a.link ∧ (endTransmission p s).lnk.a.received = s.lnk.a.received ∧ (endTransmission p s).lnk.a.checkErrors = s.lnk.a.checkErrors ∧ (endTransmission p s).lnk.b.link = s.lnk.b.link ∧ (endTransmission p s).lnk.b.received = s.lnk.b.received ∧ (endTransmission p s).lnk.b.checkErrors = s.lnk.b.checkErrors ∧ (endTransmission p s).lnk.addr = s.lnk.addr ∧ (endTransmission p s).lnk.margin = s.lnk.margin ∧ (endTransmission p s).lnk.sense = s.lnk.sense ∧ (endTransmission p s).lnk.fwdDrops = s.lnk.fwdDrops ∧ (endTransmission p s).lnk.retDrops = s.lnk.retDrops ∧ (endTransmission p s).lnk.urgentDrops = s.lnk.urgentDrops ∧ (endTransmission p s).lnk.endDiscards = s.lnk.endDiscards ∧ (endTransmission p s).rtq.alert = s.rtq.alert ∧ (endTransmission p s).rtq.response = s.rtq.response ∧ (endTransmission p s).rtq.responseHeld = s.rtq.responseHeld ∧ (endTransmission p s).rtq.echo = s.rtq.echo ∧ (endTransmission p s).rtq.report = s.rtq.report ∧ (endTransmission p s).mga = s.mga ∧ (endTransmission p s).tbs = s.tbs ∧ (endTransmission p s).rev = s.rev ∧ (endTransmission p s).ste = s.ste ∧ (endTransmission p s).csd = s.csd ∧ (endTransmission p s).vfu = s.vfu ∧ (endTransmission p s).mdc = s.mdc ∧ (endTransmission p s).evu = s.evu ∧ (endTransmission p s).axu = s.axu := by
  cases p <;> unfold endTransmission <;> dsimp only [State.setPort, Lnk.port]
  all_goals repeat' split
  all_goals simp

@[simp] theorem bringUp_frame (p : Port) (s : State) :
    (bringUp p s).pending = s.pending ∧ (bringUp p s).now = s.now ∧ (bringUp p s).inReset = s.inReset ∧ (bringUp p s).choices = s.choices ∧ (bringUp p s).lnk.a.received = s.lnk.a.received ∧ (bringUp p s).lnk.a.tx = s.lnk.a.tx ∧ (bringUp p s).lnk.a.checkErrors = s.lnk.a.checkErrors ∧ (bringUp p s).lnk.b.received = s.lnk.b.received ∧ (bringUp p s).lnk.b.tx = s.lnk.b.tx ∧ (bringUp p s).lnk.b.checkErrors = s.lnk.b.checkErrors ∧ (bringUp p s).lnk.sentFwd = s.lnk.sentFwd ∧ (bringUp p s).lnk.sentRet = s.lnk.sentRet ∧ (bringUp p s).lnk.addr = s.lnk.addr ∧ (bringUp p s).lnk.margin = s.lnk.margin ∧ (bringUp p s).lnk.sense = s.lnk.sense ∧ (bringUp p s).lnk.fwdDrops = s.lnk.fwdDrops ∧ (bringUp p s).lnk.retDrops = s.lnk.retDrops ∧ (bringUp p s).lnk.urgentDrops = s.lnk.urgentDrops ∧ (bringUp p s).lnk.endDiscards = s.lnk.endDiscards ∧ (bringUp p s).fwq = s.fwq ∧ (bringUp p s).rtq = s.rtq ∧ (bringUp p s).mga = s.mga ∧ (bringUp p s).tbs = s.tbs ∧ (bringUp p s).rev = s.rev ∧ (bringUp p s).ste = s.ste ∧ (bringUp p s).csd = s.csd ∧ (bringUp p s).vfu = s.vfu ∧ (bringUp p s).mdc = s.mdc ∧ (bringUp p s).evu = s.evu ∧ (bringUp p s).axu = s.axu := by
  refine ⟨?_, ?_, ?_, ?_, ?_, ?_, ?_, ?_, ?_, ?_, ?_, ?_, ?_, ?_, ?_, ?_, ?_, ?_, ?_, ?_, ?_, ?_, ?_, ?_, ?_, ?_, ?_, ?_, ?_, ?_⟩ <;>
  (cases p <;> unfold bringUp PortState.sendMark <;> (try dsimp only [State.setPort, Lnk.port]) <;> (repeat' split) <;> rfl)

@[simp] theorem takeDown_frame (p : Port) (s : State) :
    (takeDown p s).pending = s.pending ∧ (takeDown p s).now = s.now ∧ (takeDown p s).inReset = s.inReset ∧ (takeDown p s).choices = s.choices ∧ (takeDown p s).lnk.a.checkErrors = s.lnk.a.checkErrors ∧ (takeDown p s).lnk.b.checkErrors = s.lnk.b.checkErrors ∧ (takeDown p s).lnk.addr = s.lnk.addr ∧ (takeDown p s).lnk.margin = s.lnk.margin ∧ (takeDown p s).lnk.sense = s.lnk.sense ∧ (takeDown p s).lnk.fwdDrops = s.lnk.fwdDrops ∧ (takeDown p s).lnk.retDrops = s.lnk.retDrops ∧ (takeDown p s).lnk.urgentDrops = s.lnk.urgentDrops ∧ (takeDown p s).rtq.alert = s.rtq.alert ∧ (takeDown p s).rtq.response = s.rtq.response ∧ (takeDown p s).rtq.responseHeld = s.rtq.responseHeld ∧ (takeDown p s).rtq.echo = s.rtq.echo ∧ (takeDown p s).rtq.report = s.rtq.report ∧ (takeDown p s).mga = s.mga ∧ (takeDown p s).tbs = s.tbs ∧ (takeDown p s).rev = s.rev ∧ (takeDown p s).ste = s.ste ∧ (takeDown p s).csd = s.csd ∧ (takeDown p s).vfu = s.vfu ∧ (takeDown p s).mdc = s.mdc ∧ (takeDown p s).evu = s.evu ∧ (takeDown p s).axu = s.axu := by
  cases p <;> unfold takeDown <;> dsimp only [State.setPort, Lnk.port]
  all_goals repeat' split
  all_goals simp

@[simp] theorem receiveMark_frame (p : Port) (m : Mark) (s : State) :
    (receiveMark p m s).pending = s.pending ∧ (receiveMark p m s).now = s.now ∧ (receiveMark p m s).inReset = s.inReset ∧ (receiveMark p m s).choices = s.choices ∧ (receiveMark p m s).lnk.a.link = s.lnk.a.link ∧ (receiveMark p m s).lnk.a.tx = s.lnk.a.tx ∧ (receiveMark p m s).lnk.a.checkErrors = s.lnk.a.checkErrors ∧ (receiveMark p m s).lnk.a.wire = s.lnk.a.wire ∧ (receiveMark p m s).lnk.b.link = s.lnk.b.link ∧ (receiveMark p m s).lnk.b.tx = s.lnk.b.tx ∧ (receiveMark p m s).lnk.b.checkErrors = s.lnk.b.checkErrors ∧ (receiveMark p m s).lnk.b.wire = s.lnk.b.wire ∧ (receiveMark p m s).lnk.sentFwd = s.lnk.sentFwd ∧ (receiveMark p m s).lnk.sentRet = s.lnk.sentRet ∧ (receiveMark p m s).lnk.addr = s.lnk.addr ∧ (receiveMark p m s).lnk.margin = s.lnk.margin ∧ (receiveMark p m s).lnk.sense = s.lnk.sense ∧ (receiveMark p m s).lnk.fwdDrops = s.lnk.fwdDrops ∧ (receiveMark p m s).lnk.retDrops = s.lnk.retDrops ∧ (receiveMark p m s).lnk.urgentDrops = s.lnk.urgentDrops ∧ (receiveMark p m s).lnk.endDiscards = s.lnk.endDiscards ∧ (receiveMark p m s).fwq = s.fwq ∧ (receiveMark p m s).rtq = s.rtq ∧ (receiveMark p m s).mga = s.mga ∧ (receiveMark p m s).tbs = s.tbs ∧ (receiveMark p m s).rev = s.rev ∧ (receiveMark p m s).ste = s.ste ∧ (receiveMark p m s).csd = s.csd ∧ (receiveMark p m s).vfu = s.vfu ∧ (receiveMark p m s).mdc = s.mdc ∧ (receiveMark p m s).evu = s.evu ∧ (receiveMark p m s).axu = s.axu := by
  cases p <;> unfold receiveMark <;> dsimp only [State.setPort, Lnk.port]
  all_goals repeat' split
  all_goals simp

@[simp] theorem countCheckError_frame (p : Port) (s : State) :
    (countCheckError p s).pending = s.pending ∧ (countCheckError p s).now = s.now ∧ (countCheckError p s).inReset = s.inReset ∧ (countCheckError p s).choices = s.choices ∧ (countCheckError p s).lnk.a.link = s.lnk.a.link ∧ (countCheckError p s).lnk.a.received = s.lnk.a.received ∧ (countCheckError p s).lnk.a.tx = s.lnk.a.tx ∧ (countCheckError p s).lnk.a.wire = s.lnk.a.wire ∧ (countCheckError p s).lnk.b.link = s.lnk.b.link ∧ (countCheckError p s).lnk.b.received = s.lnk.b.received ∧ (countCheckError p s).lnk.b.tx = s.lnk.b.tx ∧ (countCheckError p s).lnk.b.wire = s.lnk.b.wire ∧ (countCheckError p s).lnk.sentFwd = s.lnk.sentFwd ∧ (countCheckError p s).lnk.sentRet = s.lnk.sentRet ∧ (countCheckError p s).lnk.addr = s.lnk.addr ∧ (countCheckError p s).lnk.margin = s.lnk.margin ∧ (countCheckError p s).lnk.sense = s.lnk.sense ∧ (countCheckError p s).lnk.fwdDrops = s.lnk.fwdDrops ∧ (countCheckError p s).lnk.retDrops = s.lnk.retDrops ∧ (countCheckError p s).lnk.urgentDrops = s.lnk.urgentDrops ∧ (countCheckError p s).lnk.endDiscards = s.lnk.endDiscards ∧ (countCheckError p s).fwq = s.fwq ∧ (countCheckError p s).rtq.queue = s.rtq.queue ∧ (countCheckError p s).rtq.response = s.rtq.response ∧ (countCheckError p s).rtq.responseHeld = s.rtq.responseHeld ∧ (countCheckError p s).rtq.echo = s.rtq.echo ∧ (countCheckError p s).rtq.report = s.rtq.report ∧ (countCheckError p s).mga = s.mga ∧ (countCheckError p s).tbs = s.tbs ∧ (countCheckError p s).rev = s.rev ∧ (countCheckError p s).ste = s.ste ∧ (countCheckError p s).csd = s.csd ∧ (countCheckError p s).vfu = s.vfu ∧ (countCheckError p s).mdc.mode = s.mdc.mode ∧ (countCheckError p s).mdc.outstanding = s.mdc.outstanding ∧ (countCheckError p s).mdc.redrive = s.mdc.redrive ∧ (countCheckError p s).mdc.validating = s.mdc.validating ∧ (countCheckError p s).evu.hotCount = s.evu.hotCount ∧ (countCheckError p s).evu.readDue = s.evu.readDue ∧ (countCheckError p s).axu = s.axu := by
  refine ⟨?_, ?_, ?_, ?_, ?_, ?_, ?_, ?_, ?_, ?_, ?_, ?_, ?_, ?_, ?_, ?_, ?_, ?_, ?_, ?_, ?_, ?_, ?_, ?_, ?_, ?_, ?_, ?_, ?_, ?_, ?_, ?_, ?_, ?_, ?_, ?_, ?_, ?_, ?_, ?_⟩ <;>
  (cases p <;> unfold countCheckError <;> (try dsimp only [State.setPort, Lnk.port]) <;> first | rfl | simp)

@[simp] theorem receiveUrgent_frame (f : Frame) (s : State) :
    (receiveUrgent f s).pending = s.pending ∧ (receiveUrgent f s).now = s.now ∧ (receiveUrgent f s).inReset = s.inReset ∧ (receiveUrgent f s).choices = s.choices ∧ (receiveUrgent f s).lnk.a.link = s.lnk.a.link ∧ (receiveUrgent f s).lnk.a.received = s.lnk.a.received ∧ (receiveUrgent f s).lnk.a.tx = s.lnk.a.tx ∧ (receiveUrgent f s).lnk.a.checkErrors = s.lnk.a.checkErrors ∧ (receiveUrgent f s).lnk.a.wire = s.lnk.a.wire ∧ (receiveUrgent f s).lnk.b.link = s.lnk.b.link ∧ (receiveUrgent f s).lnk.b.received = s.lnk.b.received ∧ (receiveUrgent f s).lnk.b.tx = s.lnk.b.tx ∧ (receiveUrgent f s).lnk.b.checkErrors = s.lnk.b.checkErrors ∧ (receiveUrgent f s).lnk.b.wire = s.lnk.b.wire ∧ (receiveUrgent f s).lnk.sentFwd = s.lnk.sentFwd ∧ (receiveUrgent f s).lnk.sentRet = s.lnk.sentRet ∧ (receiveUrgent f s).lnk.addr = s.lnk.addr ∧ (receiveUrgent f s).lnk.margin = s.lnk.margin ∧ (receiveUrgent f s).lnk.sense = s.lnk.sense ∧ (receiveUrgent f s).lnk.fwdDrops = s.lnk.fwdDrops ∧ (receiveUrgent f s).lnk.retDrops = s.lnk.retDrops ∧ (receiveUrgent f s).fwq.queue = s.fwq.queue ∧ (receiveUrgent f s).rtq.queue = s.rtq.queue ∧ (receiveUrgent f s).rtq.response = s.rtq.response ∧ (receiveUrgent f s).rtq.responseHeld = s.rtq.responseHeld ∧ (receiveUrgent f s).rtq.echo = s.rtq.echo ∧ (receiveUrgent f s).rtq.report = s.rtq.report ∧ (receiveUrgent f s).mga = s.mga ∧ (receiveUrgent f s).tbs = s.tbs ∧ (receiveUrgent f s).rev = s.rev ∧ (receiveUrgent f s).ste = s.ste ∧ (receiveUrgent f s).csd = s.csd ∧ (receiveUrgent f s).vfu = s.vfu ∧ (receiveUrgent f s).mdc.mode = s.mdc.mode ∧ (receiveUrgent f s).mdc.outstanding = s.mdc.outstanding ∧ (receiveUrgent f s).mdc.redrive = s.mdc.redrive ∧ (receiveUrgent f s).mdc.validating = s.mdc.validating ∧ (receiveUrgent f s).evu.hotCount = s.evu.hotCount ∧ (receiveUrgent f s).evu.readDue = s.evu.readDue ∧ (receiveUrgent f s).axu = s.axu := by
  unfold receiveUrgent
  dsimp only
  repeat' split
  all_goals simp

@[simp] theorem receiveFwd_frame (f : Frame) (s : State) :
    (receiveFwd f s).pending = s.pending ∧ (receiveFwd f s).now = s.now ∧ (receiveFwd f s).inReset = s.inReset ∧ (receiveFwd f s).choices = s.choices ∧ (receiveFwd f s).lnk.a.link = s.lnk.a.link ∧ (receiveFwd f s).lnk.a.received = s.lnk.a.received ∧ (receiveFwd f s).lnk.a.tx = s.lnk.a.tx ∧ (receiveFwd f s).lnk.a.checkErrors = s.lnk.a.checkErrors ∧ (receiveFwd f s).lnk.b.link = s.lnk.b.link ∧ (receiveFwd f s).lnk.b.received = s.lnk.b.received ∧ (receiveFwd f s).lnk.b.tx = s.lnk.b.tx ∧ (receiveFwd f s).lnk.b.checkErrors = s.lnk.b.checkErrors ∧ (receiveFwd f s).lnk.b.wire = s.lnk.b.wire ∧ (receiveFwd f s).lnk.sentRet = s.lnk.sentRet ∧ (receiveFwd f s).lnk.addr = s.lnk.addr ∧ (receiveFwd f s).lnk.margin = s.lnk.margin ∧ (receiveFwd f s).lnk.sense = s.lnk.sense ∧ (receiveFwd f s).lnk.retDrops = s.lnk.retDrops ∧ (receiveFwd f s).lnk.urgentDrops = s.lnk.urgentDrops ∧ (receiveFwd f s).lnk.endDiscards = s.lnk.endDiscards ∧ (receiveFwd f s).fwq.slot = s.fwq.slot ∧ (receiveFwd f s).rtq.queue = s.rtq.queue ∧ (receiveFwd f s).rtq.response = s.rtq.response ∧ (receiveFwd f s).rtq.responseHeld = s.rtq.responseHeld ∧ (receiveFwd f s).rtq.echo = s.rtq.echo ∧ (receiveFwd f s).rtq.report = s.rtq.report ∧ (receiveFwd f s).mga = s.mga ∧ (receiveFwd f s).tbs = s.tbs ∧ (receiveFwd f s).rev = s.rev ∧ (receiveFwd f s).ste = s.ste ∧ (receiveFwd f s).csd = s.csd ∧ (receiveFwd f s).vfu = s.vfu ∧ (receiveFwd f s).mdc.mode = s.mdc.mode ∧ (receiveFwd f s).mdc.outstanding = s.mdc.outstanding ∧ (receiveFwd f s).mdc.redrive = s.mdc.redrive ∧ (receiveFwd f s).mdc.validating = s.mdc.validating ∧ (receiveFwd f s).evu.hotCount = s.evu.hotCount ∧ (receiveFwd f s).evu.readDue = s.evu.readDue ∧ (receiveFwd f s).axu = s.axu := by
  unfold receiveFwd; split <;> simp

@[simp] theorem receiveRet_frame (f : Frame) (s : State) :
    (receiveRet f s).pending = s.pending ∧ (receiveRet f s).now = s.now ∧ (receiveRet f s).inReset = s.inReset ∧ (receiveRet f s).choices = s.choices ∧ (receiveRet f s).lnk.a.link = s.lnk.a.link ∧ (receiveRet f s).lnk.a.received = s.lnk.a.received ∧ (receiveRet f s).lnk.a.tx = s.lnk.a.tx ∧ (receiveRet f s).lnk.a.checkErrors = s.lnk.a.checkErrors ∧ (receiveRet f s).lnk.a.wire = s.lnk.a.wire ∧ (receiveRet f s).lnk.b.link = s.lnk.b.link ∧ (receiveRet f s).lnk.b.received = s.lnk.b.received ∧ (receiveRet f s).lnk.b.tx = s.lnk.b.tx ∧ (receiveRet f s).lnk.b.checkErrors = s.lnk.b.checkErrors ∧ (receiveRet f s).lnk.sentFwd = s.lnk.sentFwd ∧ (receiveRet f s).lnk.addr = s.lnk.addr ∧ (receiveRet f s).lnk.margin = s.lnk.margin ∧ (receiveRet f s).lnk.sense = s.lnk.sense ∧ (receiveRet f s).lnk.fwdDrops = s.lnk.fwdDrops ∧ (receiveRet f s).lnk.urgentDrops = s.lnk.urgentDrops ∧ (receiveRet f s).lnk.endDiscards = s.lnk.endDiscards ∧ (receiveRet f s).fwq = s.fwq ∧ (receiveRet f s).rtq.response = s.rtq.response ∧ (receiveRet f s).rtq.responseHeld = s.rtq.responseHeld ∧ (receiveRet f s).rtq.echo = s.rtq.echo ∧ (receiveRet f s).rtq.report = s.rtq.report ∧ (receiveRet f s).mga = s.mga ∧ (receiveRet f s).tbs = s.tbs ∧ (receiveRet f s).rev = s.rev ∧ (receiveRet f s).ste = s.ste ∧ (receiveRet f s).csd = s.csd ∧ (receiveRet f s).vfu = s.vfu ∧ (receiveRet f s).mdc.mode = s.mdc.mode ∧ (receiveRet f s).mdc.outstanding = s.mdc.outstanding ∧ (receiveRet f s).mdc.redrive = s.mdc.redrive ∧ (receiveRet f s).mdc.validating = s.mdc.validating ∧ (receiveRet f s).evu.hotCount = s.evu.hotCount ∧ (receiveRet f s).evu.readDue = s.evu.readDue ∧ (receiveRet f s).axu = s.axu := by
  unfold receiveRet; split <;> simp

@[simp] theorem placeFrame_frame (p : Port) (f : Frame) (s : State) :
    (placeFrame p f s).pending = s.pending ∧ (placeFrame p f s).now = s.now ∧ (placeFrame p f s).inReset = s.inReset ∧ (placeFrame p f s).choices = s.choices ∧ (placeFrame p f s).lnk.a.link = s.lnk.a.link ∧ (placeFrame p f s).lnk.a.received = s.lnk.a.received ∧ (placeFrame p f s).lnk.a.tx = s.lnk.a.tx ∧ (placeFrame p f s).lnk.a.checkErrors = s.lnk.a.checkErrors ∧ (placeFrame p f s).lnk.b.link = s.lnk.b.link ∧ (placeFrame p f s).lnk.b.received = s.lnk.b.received ∧ (placeFrame p f s).lnk.b.tx = s.lnk.b.tx ∧ (placeFrame p f s).lnk.b.checkErrors = s.lnk.b.checkErrors ∧ (placeFrame p f s).lnk.addr = s.lnk.addr ∧ (placeFrame p f s).lnk.margin = s.lnk.margin ∧ (placeFrame p f s).lnk.sense = s.lnk.sense ∧ (placeFrame p f s).rtq.response = s.rtq.response ∧ (placeFrame p f s).rtq.responseHeld = s.rtq.responseHeld ∧ (placeFrame p f s).rtq.echo = s.rtq.echo ∧ (placeFrame p f s).rtq.report = s.rtq.report ∧ (placeFrame p f s).mga = s.mga ∧ (placeFrame p f s).tbs = s.tbs ∧ (placeFrame p f s).rev = s.rev ∧ (placeFrame p f s).ste = s.ste ∧ (placeFrame p f s).csd = s.csd ∧ (placeFrame p f s).vfu = s.vfu ∧ (placeFrame p f s).mdc.mode = s.mdc.mode ∧ (placeFrame p f s).mdc.outstanding = s.mdc.outstanding ∧ (placeFrame p f s).mdc.redrive = s.mdc.redrive ∧ (placeFrame p f s).mdc.validating = s.mdc.validating ∧ (placeFrame p f s).evu.hotCount = s.evu.hotCount ∧ (placeFrame p f s).evu.readDue = s.evu.readDue ∧ (placeFrame p f s).axu = s.axu := by
  unfold placeFrame
  repeat' split
  all_goals simp

@[simp] theorem receiveFrame_frame (p : Port) (bs : List Byte) (s : State) :
    (receiveFrame p bs s).pending = s.pending ∧ (receiveFrame p bs s).now = s.now ∧ (receiveFrame p bs s).inReset = s.inReset ∧ (receiveFrame p bs s).choices = s.choices ∧ (receiveFrame p bs s).lnk.a.link = s.lnk.a.link ∧ (receiveFrame p bs s).lnk.a.received = s.lnk.a.received ∧ (receiveFrame p bs s).lnk.a.tx = s.lnk.a.tx ∧ (receiveFrame p bs s).lnk.b.link = s.lnk.b.link ∧ (receiveFrame p bs s).lnk.b.received = s.lnk.b.received ∧ (receiveFrame p bs s).lnk.b.tx = s.lnk.b.tx ∧ (receiveFrame p bs s).lnk.addr = s.lnk.addr ∧ (receiveFrame p bs s).lnk.margin = s.lnk.margin ∧ (receiveFrame p bs s).lnk.sense = s.lnk.sense ∧ (receiveFrame p bs s).rtq.response = s.rtq.response ∧ (receiveFrame p bs s).rtq.responseHeld = s.rtq.responseHeld ∧ (receiveFrame p bs s).rtq.echo = s.rtq.echo ∧ (receiveFrame p bs s).rtq.report = s.rtq.report ∧ (receiveFrame p bs s).mga = s.mga ∧ (receiveFrame p bs s).tbs = s.tbs ∧ (receiveFrame p bs s).rev = s.rev ∧ (receiveFrame p bs s).ste = s.ste ∧ (receiveFrame p bs s).csd = s.csd ∧ (receiveFrame p bs s).vfu = s.vfu ∧ (receiveFrame p bs s).mdc.mode = s.mdc.mode ∧ (receiveFrame p bs s).mdc.outstanding = s.mdc.outstanding ∧ (receiveFrame p bs s).mdc.redrive = s.mdc.redrive ∧ (receiveFrame p bs s).mdc.validating = s.mdc.validating ∧ (receiveFrame p bs s).evu.hotCount = s.evu.hotCount ∧ (receiveFrame p bs s).evu.readDue = s.evu.readDue ∧ (receiveFrame p bs s).axu = s.axu := by
  unfold receiveFrame
  repeat' split
  all_goals simp

@[simp] theorem passAlert_frame (s : State) :
    (passAlert s).pending = s.pending ∧ (passAlert s).now = s.now ∧ (passAlert s).inReset = s.inReset ∧ (passAlert s).choices = s.choices ∧ (passAlert s).lnk.a.link = s.lnk.a.link ∧ (passAlert s).lnk.a.received = s.lnk.a.received ∧ (passAlert s).lnk.a.tx = s.lnk.a.tx ∧ (passAlert s).lnk.a.checkErrors = s.lnk.a.checkErrors ∧ (passAlert s).lnk.a.wire = s.lnk.a.wire ∧ (passAlert s).lnk.b.link = s.lnk.b.link ∧ (passAlert s).lnk.b.received = s.lnk.b.received ∧ (passAlert s).lnk.b.tx = s.lnk.b.tx ∧ (passAlert s).lnk.b.checkErrors = s.lnk.b.checkErrors ∧ (passAlert s).lnk.sentFwd = s.lnk.sentFwd ∧ (passAlert s).lnk.addr = s.lnk.addr ∧ (passAlert s).lnk.margin = s.lnk.margin ∧ (passAlert s).lnk.sense = s.lnk.sense ∧ (passAlert s).lnk.fwdDrops = s.lnk.fwdDrops ∧ (passAlert s).lnk.retDrops = s.lnk.retDrops ∧ (passAlert s).lnk.urgentDrops = s.lnk.urgentDrops ∧ (passAlert s).lnk.endDiscards = s.lnk.endDiscards ∧ (passAlert s).fwq = s.fwq ∧ (passAlert s).rtq.response = s.rtq.response ∧ (passAlert s).rtq.responseHeld = s.rtq.responseHeld ∧ (passAlert s).rtq.echo = s.rtq.echo ∧ (passAlert s).rtq.report = s.rtq.report ∧ (passAlert s).mga = s.mga ∧ (passAlert s).tbs = s.tbs ∧ (passAlert s).rev = s.rev ∧ (passAlert s).ste = s.ste ∧ (passAlert s).csd = s.csd ∧ (passAlert s).vfu = s.vfu ∧ (passAlert s).mdc = s.mdc ∧ (passAlert s).evu = s.evu ∧ (passAlert s).axu = s.axu := by
  unfold passAlert
  repeat' split
  all_goals simp

@[simp] theorem passResponse_frame (s : State) :
    (passResponse s).pending = s.pending ∧ (passResponse s).now = s.now ∧ (passResponse s).inReset = s.inReset ∧ (passResponse s).choices = s.choices ∧ (passResponse s).lnk.a.link = s.lnk.a.link ∧ (passResponse s).lnk.a.received = s.lnk.a.received ∧ (passResponse s).lnk.a.tx = s.lnk.a.tx ∧ (passResponse s).lnk.a.checkErrors = s.lnk.a.checkErrors ∧ (passResponse s).lnk.a.wire = s.lnk.a.wire ∧ (passResponse s).lnk.b.link = s.lnk.b.link ∧ (passResponse s).lnk.b.received = s.lnk.b.received ∧ (passResponse s).lnk.b.tx = s.lnk.b.tx ∧ (passResponse s).lnk.b.checkErrors = s.lnk.b.checkErrors ∧ (passResponse s).lnk.sentFwd = s.lnk.sentFwd ∧ (passResponse s).lnk.addr = s.lnk.addr ∧ (passResponse s).lnk.margin = s.lnk.margin ∧ (passResponse s).lnk.sense = s.lnk.sense ∧ (passResponse s).lnk.fwdDrops = s.lnk.fwdDrops ∧ (passResponse s).lnk.retDrops = s.lnk.retDrops ∧ (passResponse s).lnk.urgentDrops = s.lnk.urgentDrops ∧ (passResponse s).lnk.endDiscards = s.lnk.endDiscards ∧ (passResponse s).fwq = s.fwq ∧ (passResponse s).rtq.alert = s.rtq.alert ∧ (passResponse s).rtq.responseHeld = s.rtq.responseHeld ∧ (passResponse s).rtq.echo = s.rtq.echo ∧ (passResponse s).rtq.report = s.rtq.report ∧ (passResponse s).mga = s.mga ∧ (passResponse s).tbs = s.tbs ∧ (passResponse s).rev = s.rev ∧ (passResponse s).ste = s.ste ∧ (passResponse s).csd = s.csd ∧ (passResponse s).vfu = s.vfu ∧ (passResponse s).mdc = s.mdc ∧ (passResponse s).evu = s.evu ∧ (passResponse s).axu = s.axu := by
  unfold passResponse
  repeat' split
  all_goals simp

@[simp] theorem passEcho_frame (s : State) :
    (passEcho s).pending = s.pending ∧ (passEcho s).now = s.now ∧ (passEcho s).inReset = s.inReset ∧ (passEcho s).choices = s.choices ∧ (passEcho s).lnk.a.link = s.lnk.a.link ∧ (passEcho s).lnk.a.received = s.lnk.a.received ∧ (passEcho s).lnk.a.tx = s.lnk.a.tx ∧ (passEcho s).lnk.a.checkErrors = s.lnk.a.checkErrors ∧ (passEcho s).lnk.a.wire = s.lnk.a.wire ∧ (passEcho s).lnk.b.link = s.lnk.b.link ∧ (passEcho s).lnk.b.received = s.lnk.b.received ∧ (passEcho s).lnk.b.tx = s.lnk.b.tx ∧ (passEcho s).lnk.b.checkErrors = s.lnk.b.checkErrors ∧ (passEcho s).lnk.sentFwd = s.lnk.sentFwd ∧ (passEcho s).lnk.addr = s.lnk.addr ∧ (passEcho s).lnk.margin = s.lnk.margin ∧ (passEcho s).lnk.sense = s.lnk.sense ∧ (passEcho s).lnk.fwdDrops = s.lnk.fwdDrops ∧ (passEcho s).lnk.retDrops = s.lnk.retDrops ∧ (passEcho s).lnk.urgentDrops = s.lnk.urgentDrops ∧ (passEcho s).lnk.endDiscards = s.lnk.endDiscards ∧ (passEcho s).fwq = s.fwq ∧ (passEcho s).rtq.alert = s.rtq.alert ∧ (passEcho s).rtq.response = s.rtq.response ∧ (passEcho s).rtq.responseHeld = s.rtq.responseHeld ∧ (passEcho s).rtq.report = s.rtq.report ∧ (passEcho s).mga = s.mga ∧ (passEcho s).tbs = s.tbs ∧ (passEcho s).rev = s.rev ∧ (passEcho s).ste = s.ste ∧ (passEcho s).csd = s.csd ∧ (passEcho s).vfu = s.vfu ∧ (passEcho s).mdc = s.mdc ∧ (passEcho s).evu = s.evu ∧ (passEcho s).axu = s.axu := by
  unfold passEcho
  repeat' split
  all_goals simp

@[simp] theorem passReport_frame (s : State) :
    (passReport s).pending = s.pending ∧ (passReport s).now = s.now ∧ (passReport s).inReset = s.inReset ∧ (passReport s).choices = s.choices ∧ (passReport s).lnk.a.link = s.lnk.a.link ∧ (passReport s).lnk.a.received = s.lnk.a.received ∧ (passReport s).lnk.a.tx = s.lnk.a.tx ∧ (passReport s).lnk.a.checkErrors = s.lnk.a.checkErrors ∧ (passReport s).lnk.a.wire = s.lnk.a.wire ∧ (passReport s).lnk.b.link = s.lnk.b.link ∧ (passReport s).lnk.b.received = s.lnk.b.received ∧ (passReport s).lnk.b.tx = s.lnk.b.tx ∧ (passReport s).lnk.b.checkErrors = s.lnk.b.checkErrors ∧ (passReport s).lnk.sentFwd = s.lnk.sentFwd ∧ (passReport s).lnk.addr = s.lnk.addr ∧ (passReport s).lnk.margin = s.lnk.margin ∧ (passReport s).lnk.sense = s.lnk.sense ∧ (passReport s).lnk.fwdDrops = s.lnk.fwdDrops ∧ (passReport s).lnk.retDrops = s.lnk.retDrops ∧ (passReport s).lnk.urgentDrops = s.lnk.urgentDrops ∧ (passReport s).lnk.endDiscards = s.lnk.endDiscards ∧ (passReport s).fwq = s.fwq ∧ (passReport s).rtq.alert = s.rtq.alert ∧ (passReport s).rtq.response = s.rtq.response ∧ (passReport s).rtq.responseHeld = s.rtq.responseHeld ∧ (passReport s).rtq.echo = s.rtq.echo ∧ (passReport s).mga = s.mga ∧ (passReport s).tbs = s.tbs ∧ (passReport s).rev = s.rev ∧ (passReport s).ste = s.ste ∧ (passReport s).csd = s.csd ∧ (passReport s).vfu = s.vfu ∧ (passReport s).mdc = s.mdc ∧ (passReport s).evu = s.evu ∧ (passReport s).axu = s.axu := by
  unfold passReport
  repeat' split
  all_goals simp

theorem admissionPass_frame (s : State) {t : State} (h : admissionPass s = some t) :
    t.pending = s.pending ∧ t.now = s.now ∧ t.inReset = s.inReset ∧ t.choices = s.choices ∧ t.lnk.a.link = s.lnk.a.link ∧ t.lnk.a.received = s.lnk.a.received ∧ t.lnk.a.tx = s.lnk.a.tx ∧ t.lnk.a.checkErrors = s.lnk.a.checkErrors ∧ t.lnk.a.wire = s.lnk.a.wire ∧ t.lnk.b.link = s.lnk.b.link ∧ t.lnk.b.received = s.lnk.b.received ∧ t.lnk.b.tx = s.lnk.b.tx ∧ t.lnk.b.checkErrors = s.lnk.b.checkErrors ∧ t.lnk.sentFwd = s.lnk.sentFwd ∧ t.lnk.addr = s.lnk.addr ∧ t.lnk.margin = s.lnk.margin ∧ t.lnk.sense = s.lnk.sense ∧ t.lnk.fwdDrops = s.lnk.fwdDrops ∧ t.lnk.retDrops = s.lnk.retDrops ∧ t.lnk.urgentDrops = s.lnk.urgentDrops ∧ t.lnk.endDiscards = s.lnk.endDiscards ∧ t.fwq = s.fwq ∧ t.rtq.responseHeld = s.rtq.responseHeld ∧ t.mga = s.mga ∧ t.tbs = s.tbs ∧ t.rev = s.rev ∧ t.ste = s.ste ∧ t.csd = s.csd ∧ t.vfu = s.vfu ∧ t.mdc = s.mdc ∧ t.evu = s.evu ∧ t.axu = s.axu := by
  unfold admissionPass at h
  split at h <;> simp at h
  simp [← h]

@[simp] theorem flushChain_frame (s : State) :
    (flushChain s).pending = s.pending ∧ (flushChain s).now = s.now ∧ (flushChain s).inReset = s.inReset ∧ (flushChain s).choices = s.choices ∧ (flushChain s).lnk.addr = s.lnk.addr ∧ (flushChain s).lnk.margin = s.lnk.margin ∧ (flushChain s).lnk.sense = s.lnk.sense ∧ (flushChain s).lnk.fwdDrops = s.lnk.fwdDrops ∧ (flushChain s).lnk.retDrops = s.lnk.retDrops ∧ (flushChain s).lnk.urgentDrops = s.lnk.urgentDrops ∧ (flushChain s).lnk.endDiscards = s.lnk.endDiscards ∧ (flushChain s).mga = s.mga ∧ (flushChain s).tbs = s.tbs ∧ (flushChain s).rev = s.rev ∧ (flushChain s).ste = s.ste ∧ (flushChain s).csd = s.csd ∧ (flushChain s).vfu = s.vfu ∧ (flushChain s).mdc = s.mdc ∧ (flushChain s).evu = s.evu ∧ (flushChain s).axu = s.axu := by
  simp [flushChain]


end Sys2Proof.Machine
end

