-- ==== Sys2Proof/Laws/Settle.lean ====
section
/-! SUPPORT. The consequences of an event: `settle` runs `react` until nothing is due, so a relation that every reaction
keeps is kept by `settled`. Shown once here: what they leave alone on the chain side and on the matrix side. -/

namespace Sys2Proof.Machine

/-- A property of states and a relation that every reaction keeps are kept by `settle`. -/
theorem settle_keeps {P : State → Prop} {R : State → State → Prop} (refl : ∀ s, R s s)
    (trans : ∀ s t u, R s t → R t u → R s u)
    (step : ∀ s t, P s → react s = some t → P t ∧ R s t) (n : Nat) (s : State) (h : P s) :
    P (settle n s) ∧ R s (settle n s) := by
  induction n generalizing s with
  | zero => exact ⟨h, refl s⟩
  | succ n ih =>
    unfold settle
    cases r : react s with
    | none => exact ⟨h, refl s⟩
    | some t =>
      obtain ⟨p, a⟩ := step s t h r
      obtain ⟨q, b⟩ := ih t p
      exact ⟨q, trans _ _ _ a b⟩

/-- A complete event has no consequence left to draw. -/
theorem settle_complete (n : Nat) (s : State) (h : s.complete) : settle n s = s := by
  cases n with
  | zero => rfl
  | succ n => unfold State.complete at h; simp [settle, h]

/-- What `react` can do. -/
theorem react_cases {s t : State} (h : react s = some t) :
    restartEvaluation s = some t ∨ makePass s = some t ∨ chooseVerify s = some t ∨ completeSafe s = some t ∨
      endHold s = some t ∨ offerAnswer s = some t ∨ offerReport s = some t ∨ examineHead s = some t ∨
      admissionPass s = some t ∨ startTxB s = some t ∨ startTxA s = some t := by
  unfold react at h
  simp only [Option.orElse_eq_or, Option.or_eq_some_iff] at h
  tauto

/-- In a complete state no single consequence is due. -/
theorem complete_parts {s : State} (h : s.complete) :
    restartEvaluation s = none ∧ makePass s = none ∧ chooseVerify s = none ∧ completeSafe s = none ∧ endHold s = none ∧
      offerAnswer s = none ∧ offerReport s = none ∧ examineHead s = none ∧ admissionPass s = none ∧ startTxB s = none ∧
      startTxA s = none := by
  unfold State.complete react at h
  simpa only [Option.orElse_eq_or, Option.or_eq_none_iff] using h

end Sys2Proof.Machine
end

