-- ==== Sys2Proof/Laws/Kept.lean ====
section
/-! SUPPORT. `settled` keeps the chain side and the matrix side as `KeptChain` and `KeptMatrix` say, from every state in
which no frame waits to be examined; and moves nothing at all where nothing is about to launch. -/

namespace Sys2Proof.Machine

/-! ## Reflexivity and transitivity -/

theorem KeptChain.refl (s : State) : KeptChain s s := by
  constructor <;> simp
  exact fun a b _ _ => ⟨a, b⟩

theorem KeptChain.trans {s t u : State} (h : KeptChain s t) (g : KeptChain t u) : KeptChain s u where
  pending := g.pending.trans h.pending
  now := g.now.trans h.now
  inReset := g.inReset.trans h.inReset
  straps := ⟨g.straps.1.trans h.straps.1, g.straps.2.1.trans h.straps.2.1, g.straps.2.2.trans h.straps.2.2⟩
  links := ⟨g.links.1.trans h.links.1, g.links.2.trans h.links.2⟩
  marks := ⟨g.marks.1.trans h.marks.1, g.marks.2.trans h.marks.2⟩
  checks := ⟨g.checks.1.trans h.checks.1, g.checks.2.trans h.checks.2⟩
  drops := ⟨g.drops.1.trans h.drops.1, g.drops.2.1.trans h.drops.2.1, g.drops.2.2.trans h.drops.2.2⟩
  wires := ⟨h.wires.1.trans g.wires.1, h.wires.2.trans g.wires.2⟩
  dark := ⟨fun e => (g.dark.1 (h.links.1.trans e)).trans (h.dark.1 e),
    fun e => (g.dark.2 (h.links.2.trans e)).trans (h.dark.2 e)⟩
  sending := ⟨fun x e => g.sending.1 x (h.sending.1 x e), fun x e => g.sending.2 x (h.sending.2 x e)⟩
  slot := g.slot.trans h.slot
  forward := g.forward.trans h.forward
  forwardKept e := by
    have a := h.forwardKept e
    have b := g.forwardKept (e.imp (fun x => h.links.2.trans x) (fun x => by rw [a.1]; exact x))
    exact ⟨b.1.trans a.1, b.2.trans a.2⟩
  back := h.back.trans g.back
  barred e := by
    have a := h.barred e
    have b := g.barred ⟨by rw [a.1]; exact e.1, by have := h.back.length_le; rw [h.straps.2.1]; exact e.2.trans (by omega)⟩
    exact ⟨b.1.trans a.1, fun w => b.2 (a.2 w)⟩
  unheld e := g.unheld (h.unheld e)
  answers e f x := g.answers (h.unheld e) f (h.answers e f x)
  reports f x := g.reports f (h.reports f x)
  echoes f x := g.echoes f (h.echoes f x)
  agentIdle e := g.agentIdle (h.agentIdle e)
  held e i r m := by
    have a := h.held e i r m
    have b := g.held a.1 a.2.2.2 r (a.2.2.1.trans m)
    exact ⟨b.1, b.2.1.trans a.2.1, b.2.2.1.trans a.2.2.1, b.2.2.2⟩
  agentServing e r x := g.agentServing (h.unheld e) r (h.agentServing e r x)

theorem State.StepStands.refl (s : State) : s.StepStands s := ⟨⟨rfl, rfl, rfl, rfl, rfl⟩, rfl, rfl⟩

theorem stepStands_iff {e u : State} : e.StepStands u ↔
    (u.ste.ident = e.ste.ident ∧ u.ste.snapshot = e.ste.snapshot ∧ u.ste.changing = e.ste.changing ∧
      u.ste.landed = e.ste.landed ∧ u.ste.report = e.ste.report) ∧
    u.vfu.idleLead = e.vfu.idleLead ∧ u.vfu.idleMark = e.vfu.idleMark := ⟨fun h => ⟨h.1, h.2⟩, fun h => ⟨h.1, h.2⟩⟩

theorem not_idle_of_wait {x : EngineState} (h : x = .reportWait) : ¬x = .idle := by subst h; decide

theorem State.StepStands.trans {s t u : State} (h : s.StepStands t) (g : t.StepStands u) : s.StepStands u :=
  ⟨⟨g.step.1.trans h.step.1, g.step.2.1.trans h.step.2.1, g.step.2.2.1.trans h.step.2.2.1,
    g.step.2.2.2.1.trans h.step.2.2.2.1, g.step.2.2.2.2.trans h.step.2.2.2.2⟩,
    g.idleTimer.1.trans h.idleTimer.1, g.idleTimer.2.trans h.idleTimer.2⟩

/-- An engine at rest stays so while its step's record, the timer, the clock and the idle lead stand. -/
theorem State.Rests.of {t u : State} (h : t.Rests) (g : t.StepStands u) (st : u.ste.st = t.ste.st) (now : u.now = t.now)
    (runtime : u.tbs.runtime = t.tbs.runtime) (mode : u.mdc.mode.isRunOrSafe = true → t.mdc.mode.isRunOrSafe = true) :
    u.Rests where
  state := st.trans h.state
  discarded := ⟨g.step.1.trans h.discarded.1, g.step.2.1.trans h.discarded.2.1, by rw [g.step.2.2.1]; exact h.discarded.2.2⟩
  timed m l := by rw [g.idleTimer.1, g.idleTimer.2, now, runtime]; exact h.timed (mode m) (by rwa [← runtime])
  expired m l := by rw [g.idleTimer.1, g.idleTimer.2]; exact h.expired (mode m) (by rwa [← runtime])

theorem KeptMatrix.refl (s : State) : KeptMatrix s s := by
  constructor <;> simp [stepStands_iff]
  · exact not_idle_of_wait
  · intros; contradiction

/-- Where the engine is in REPORT_WAIT at the end, it was there before. -/
theorem KeptMatrix.waited {s t : State} (h : KeptMatrix s t) (e : t.ste.st = .reportWait) : s.ste.st = .reportWait := by
  rcases h.engine with a | a
  · rwa [← a]
  · exact a.1

theorem KeptMatrix.trans {s t u : State} (h : KeptMatrix s t) (g : KeptMatrix t u) : KeptMatrix s u where
  clock := g.clock.trans h.clock
  tables := by rw [g.tables, h.tables]
  lines := g.lines.trans h.lines
  route := g.route.trans h.route
  evaluating := g.evaluating.trans h.evaluating
  engine := by
    rcases h.engine with a | a <;> rcases g.engine with b | b
    · exact .inl (b.trans a)
    · exact .inr ⟨a ▸ b.1, b.2⟩
    · exact .inr ⟨a.1, b.trans a.2⟩
    · rw [a.2] at b; exact absurd b.1 (by decide)
  result := ⟨g.result.1.trans h.result.1, g.result.2.1.trans h.result.2.1, g.result.2.2.trans h.result.2.2⟩
  timers := ⟨g.timers.1.trans h.timers.1, g.timers.2.trans h.timers.2⟩
  marked := ⟨g.marked.1.trans h.marked.1, g.marked.2.1.trans h.marked.2.1, g.marked.2.2.trans h.marked.2.2⟩
  step e := by
    rcases e with e | e
    · exact (h.step (.inl e)).trans (g.step (.inl fun x => e (h.waited x)))
    · exact (h.step (.inr (g.waited e))).trans (g.step (.inr e))
  placed e i := by
    rcases h.engine with a | a
    · have w : t.ste.st = .reportWait := a.trans e
      have b := g.placed w i
      exact ⟨b.1, b.2.1, by rw [← (h.step (.inr w)).step.2.2.2.2]; exact b.2.2⟩
    · have b := h.placed a.1 a.2
      have n : t.ste.st ≠ .reportWait := by rw [a.2]; decide
      have k := g.step (.inl n)
      refine ⟨b.1.of k (i.trans a.2.symm) g.clock (by rw [g.tables]) ?_, k.step.2.2.2.2.trans b.2.1, b.2.2⟩
      rcases g.mode with m | m
      · rw [m]; exact id
      · rw [m.1]; intro _; rfl
  positions := g.positions.trans h.positions
  recovery := ⟨g.recovery.1.trans h.recovery.1, g.recovery.2.1.trans h.recovery.2.1,
    g.recovery.2.2.trans h.recovery.2.2⟩
  lockouts := g.lockouts.trans h.lockouts
  supply := g.supply.trans h.supply
  handed e := by
    have a := h.handed e
    have b := g.handed a.1
    refine ⟨b.1, b.2.1.trans a.2.1, fun i => ?_⟩
    rcases a.2.2 i with x | ⟨x, y, p, z, w⟩
    · rcases b.2.2 i with x' | ⟨x', y', p', z', w'⟩
      · exact .inl (x'.trans x)
      · refine .inr ⟨x', ?_, p', z', x ▸ w'⟩
        cases q : s.csd.pulses[i] with
        | none => rfl
        | some q' => rw [h.flights i q' q] at y'; cases y'
    · refine .inr ⟨?_, y, p, g.flights i p z, w⟩
      rcases b.2.2 i with x' | ⟨x', _⟩
      · exact x'.trans x
      · exact x'
  flights i p e := g.flights i p (h.flights i p e)
  launches i p e n := by
    by_cases m : t.csd.pulses[i] = some p
    · exact h.launches i p m n
    · have b := g.launches i p e m
      have k : s.csd.pulses[i] = none := by
        cases q : s.csd.pulses[i] with
        | none => rfl
        | some q' => rw [h.flights i q' q] at b; cases b.1
      exact ⟨k, h.supply ▸ b.2.1, b.2.2.1.trans h.clock, b.2.2.2.1, by rw [b.2.2.2.2]; simp [h.positions]⟩
  worn i e := by
    have k : t.csd.pulses[i] = s.csd.pulses[i] := by
      cases q : s.csd.pulses[i] with
      | some p => exact h.flights i p q
      | none =>
        cases m : t.csd.pulses[i] with
        | none => rfl
        | some p => rw [g.flights i p m, q] at e; cases e
    have a := h.worn i k
    have b := g.worn i (e.trans k.symm)
    exact ⟨b.1.trans a.1, b.2.trans a.2⟩
  debt := ⟨g.debt.1.trans h.debt.1, g.debt.2.trans h.debt.2⟩
  slot := g.slot.trans h.slot
  demands := ⟨g.demands.1.trans h.demands.1, g.demands.2.trans h.demands.2⟩
  verifying b k d e := g.verifying b k d (h.verifying b k d e)
  mode := by
    rcases h.mode with a | a <;> rcases g.mode with b | b
    · exact .inl (b.trans a)
    · exact .inr ⟨a ▸ b.1, b.2⟩
    · exact .inr ⟨a.1, b.trans a.2⟩
    · rw [a.2] at b; exact absurd b.1 (by decide)
  requests := ⟨g.requests.1.trans h.requests.1, g.requests.2.trans h.requests.2⟩
  flags i e := g.flags i (h.flags i e)
  levels := g.levels.trans h.levels

/-! ## Where whole blocks stand -/

theorem KeptChain.ofSame {s t : State} (pending : t.pending = s.pending) (now : t.now = s.now)
    (inReset : t.inReset = s.inReset) (lnk : t.lnk = s.lnk) (fwq : t.fwq = s.fwq) (rtq : t.rtq = s.rtq)
    (mga : t.mga = s.mga) (report : t.ste.report = s.ste.report) (state : t.ste.st = s.ste.st)
    (flights : s.csd.anyInFlight = true → t.csd.anyInFlight = true := by exact id) : KeptChain s t where
  pending := pending
  now := now
  inReset := inReset
  straps := by simp [lnk]
  links := by simp [lnk]
  marks := by simp [lnk]
  checks := by simp [lnk]
  drops := by simp [lnk]
  wires := by simp [lnk]
  dark := by simp [lnk]
  sending := by simp [lnk]
  slot := by rw [fwq]
  forward := by rw [fwq]
  forwardKept := by simp [fwq, lnk]
  back := by rw [rtq]
  barred _ := ⟨by rw [rtq], fun w => state.trans w⟩
  unheld := by simp [rtq]
  answers _ f x := by simpa [State.answered, mga, rtq] using x
  reports f x := by simpa [State.reported, report, rtq] using x
  echoes f x := by simpa [State.echoed, rtq] using x
  agentIdle := by simp [mga]
  held h f r m := ⟨by rw [rtq, h], by rw [rtq], mga, flights f⟩
  agentServing := by simp [mga]

theorem KeptMatrix.ofSame {s t : State} (now : t.now = s.now) (tbs : t.tbs = s.tbs) (axu : t.axu = s.axu)
    (rev : t.rev = s.rev) (ste : t.ste = s.ste) (csd : t.csd = s.csd) (vfu : t.vfu = s.vfu) (mdc : t.mdc = s.mdc)
    (evu : t.evu = s.evu) : KeptMatrix s t where
  clock := now
  tables := by rw [tbs]
  lines := axu
  route := by rw [rev]
  evaluating := by rw [rev]
  engine := .inl (by rw [ste])
  result := by simp [ste]
  timers := by simp [ste]
  marked := by simp [ste]
  step _ := ⟨by simp [ste], by simp [vfu]⟩
  placed a b := by rw [ste, a] at b; cases b
  positions := by rw [csd]
  recovery := by simp [csd]
  lockouts := by rw [csd]
  supply := by rw [csd]
  handed h := ⟨by unfold safeComplete at h ⊢; rw [csd, mdc]; exact h, mdc, fun i => .inl (by rw [csd])⟩
  flights i p h := by rw [csd]; exact h
  launches i p h n := by rw [csd] at h; exact absurd h n
  worn i _ := by simp [csd, tbs]
  debt := by simp [vfu]
  slot := by rw [vfu]
  demands := by simp [vfu]
  verifying b k d h := by rw [vfu]; exact h
  mode := .inl (by rw [mdc])
  requests := by simp [mdc]
  flags i h := by rw [evu]; exact h
  levels := by rw [evu]

/-- Where every pulse stays, something stays in flight. -/
theorem anyInFlight_of {c d : Csd} (k : ∀ (i : Elem) (p : Pulse), c.pulses[i] = some p → d.pulses[i] = some p)
    (h : c.anyInFlight = true) : d.anyInFlight = true := by
  unfold Csd.anyInFlight Csd.inTransit at *
  obtain ⟨e, m, h⟩ := List.any_eq_true.mp h
  obtain ⟨p, h⟩ := Option.isSome_iff_exists.mp h
  exact List.any_eq_true.mpr ⟨e, m, by simp [k e p h]⟩

/-- A launch pass, or a part of one. -/
theorem Passed.kept {s t : State} (h : Passed s t) : KeptChain s t ∧ KeptMatrix s t := by
  have o : t.rtq.queue = s.rtq.queue ∧ t.rtq.response = s.rtq.response ∧ t.rtq.responseHeld = s.rtq.responseHeld ∧
      t.rtq.echo = s.rtq.echo ∧ t.rtq.report = s.rtq.report := by
    rw [h.outbox]; simp
  have e : t.ste.report = s.ste.report := by rw [h.engine]
  constructor
  · exact
    { pending := h.pending
      now := h.now
      inReset := h.inReset
      straps := by simp [h.lnk]
      links := by simp [h.lnk]
      marks := by simp [h.lnk]
      checks := by simp [h.lnk]
      drops := by simp [h.lnk]
      wires := by simp [h.lnk]
      dark := by simp [h.lnk]
      sending := by simp [h.lnk]
      slot := by rw [h.fwq]
      forward := by rw [h.fwq]
      forwardKept := by simp [h.fwq, h.lnk]
      back := by rw [o.1]
      barred := fun _ => ⟨o.2.2.2.2, fun w => by rw [h.engine]; exact w⟩
      unheld := by simp [o]
      answers := fun _ f x => by simpa [State.answered, h.mga, o] using x
      reports := fun f x => by simpa [State.reported, e, o] using x
      echoes := fun f x => by simpa [State.echoed, o] using x
      agentIdle := by simp [h.mga]
      held := fun a f r m => ⟨by rw [o.2.2.1, a], o.2.1, h.mga, anyInFlight_of h.flights f⟩
      agentServing := by simp [h.mga] }
  · exact
    { clock := h.now
      tables := h.tables
      lines := h.axu
      route := by rw [h.rev]
      evaluating := by rw [h.rev]
      engine := .inl (by rw [h.engine])
      result := by rw [h.engine]; simp
      timers := by rw [h.engine]; simp
      marked := by rw [h.engine]; simp
      step := fun _ => ⟨by rw [h.engine]; simp, by simp [h.vfu]⟩
      placed := fun a b => by rw [h.engine] at b; rw [a] at b; cases b
      positions := h.recorded
      recovery := h.recovery
      lockouts := h.lockouts
      supply := h.supply
      handed := fun k => by
        refine ⟨?_, h.mdc, fun i => ?_⟩
        · have n : t.csd.anyInFlight = false → s.csd.anyInFlight = false := by
            intro x
            by_contra y
            rw [anyInFlight_of h.flights (by simpa using y)] at x
            cases x
          unfold safeComplete at k ⊢
          rw [h.mdc]
          have l : t.csd.latchEmpty = s.csd.latchEmpty := by unfold Csd.latchEmpty; rw [h.recovery.2.1]
          rw [l]
          revert n k
          cases t.csd.anyInFlight <;> cases s.csd.anyInFlight <;> simp
        · by_cases m : t.csd.pulses[i] = s.csd.pulses[i]
          · exact .inl (h.worn i m).2.2
          · cases q : t.csd.pulses[i] with
            | none =>
              cases r : s.csd.pulses[i] with
              | none => rw [q, r] at m; exact absurd rfl m
              | some p => rw [h.flights i p r] at q; cases q
            | some p =>
              have a := h.launches i p q (by rw [← q]; exact fun z => m z.symm)
              exact .inr ⟨a.2.2.2.2.2.2, a.1, p, rfl, a.2.2.2.2.2.1⟩
      flights := h.flights
      launches := fun i p x n =>
        let a := h.launches i p x n
        ⟨a.1, a.2.1, a.2.2.1, a.2.2.2.1, a.2.2.2.2.1⟩
      worn := fun i x => let a := h.worn i x; ⟨a.1, a.2.1⟩
      debt := by simp [h.vfu]
      slot := by rw [h.vfu]
      demands := by simp [h.vfu]
      verifying := fun b k d x => by rw [h.vfu]; exact x
      mode := .inl (by rw [h.mdc])
      requests := by simp [h.mdc]
      flags := h.flags
      levels := h.levels }

/-- The chain side and the matrix side are kept. -/
def Kept (s t : State) : Prop := KeptChain s t ∧ KeptMatrix s t

theorem Kept.refl (s : State) : Kept s s := ⟨.refl s, .refl s⟩

theorem Kept.trans {s t u : State} (h : Kept s t) (g : Kept t u) : Kept s u := ⟨h.1.trans g.1, h.2.trans g.2⟩

/-- Blocks of the model's own change: the choice counter, the pass that is due, the drive of an empty pending set. -/
theorem Kept.chose (s : State) : Kept s s.chose :=
  ⟨.ofSame rfl rfl rfl rfl rfl rfl rfl rfl rfl, .ofSame rfl rfl rfl rfl rfl rfl rfl rfl rfl⟩

/-- What a pass forgets: the drive of an empty pending set, the pass that is due. -/
theorem Kept.setDrive (s : State) (d : Option Drive) (b : Bool) :
    Kept s { s with csd.drive := d, csd.passDue := b } := by
  refine ⟨.ofSame rfl rfl rfl rfl rfl rfl rfl rfl rfl, ?_⟩
  constructor <;> simp [stepStands_iff]
  · exact not_idle_of_wait
  · exact id
  · intros; contradiction

theorem launchPass_kept (s : State) : Kept s (launchPass s) := by
  obtain ⟨_, u, h, r⟩ := launchPass_after s
  have a : Kept s u := (Kept.setDrive s s.csd.drive false).trans h.kept
  rcases r with r | r
  · rw [r]; exact a
  · rw [r]; exact a.trans (Kept.setDrive u none u.csd.passDue)

/-! ## Each reaction -/

theorem restartEvaluation_kept {s t : State} (h : restartEvaluation s = some t) : Kept s t := by
  unfold restartEvaluation at h
  split at h
  · cases h
  · rename_i v hv
    split at h <;> cases h
    refine ⟨.ofSame rfl rfl rfl rfl rfl rfl rfl rfl rfl, ?_⟩
    constructor <;> simp [startEvaluation, hv, stepStands_iff]
    · exact not_idle_of_wait
    · exact id
    · intros; contradiction

/-- A verify action changes the activity alone, and no verify in progress. -/
theorem verifyAction_eq {s t : State} (h : verifyAction s = some t) :
    (∀ b k due, s.vfu.activity ≠ .verifying b k due) ∧ ∃ a, t = { s with vfu.activity := a } := by
  unfold verifyAction at h
  split at h
  · rename_i ha
    refine ⟨by simp [ha], ?_⟩
    obtain ⟨x, _, rfl⟩ := Option.map_eq_some_iff.mp h
    unfold takeBank startVerify
    split <;> exact ⟨_, rfl⟩
  · rename_i b k ha
    refine ⟨by simp [ha], ?_⟩
    split at h <;> cases h
    exact ⟨_, rfl⟩
  · cases h

theorem verifyAction_kept {s t : State} (h : verifyAction s = some t) : Kept s t := by
  obtain ⟨n, a, rfl⟩ := verifyAction_eq h
  refine ⟨.ofSame rfl rfl rfl rfl rfl rfl rfl rfl rfl, ?_⟩
  constructor <;> simp [stepStands_iff]
  · exact not_idle_of_wait
  · exact id
  · intros; contradiction
  · intro b k d x; exact absurd x (n b k d)

theorem makePass_kept {s t : State} (h : makePass s = some t) : Kept s t := by
  unfold makePass at h
  split at h
  · split at h
    · cases h; exact launchPass_kept s
    · rename_i v hv
      split at h
      · split at h <;> cases h
        · exact (verifyAction_kept hv).trans (Kept.chose v)
        · exact (Kept.chose s).trans (launchPass_kept _)
      · cases h; exact launchPass_kept s
  · cases h

/-- Changes the mode of the waiting alert with the mode (R172). -/
theorem setMode_eq (m : Mode) (s : State) : ∃ a, setMode m s = { s with mdc.mode := m, rtq.alert := a } := ⟨_, rfl⟩

theorem setMode_held_kept (s : State) (h : s.mdc.mode = .safe .driving) (c : safeComplete s = true) : Kept s (setMode (.safe .held) s) := by
  obtain ⟨a, e⟩ := setMode_eq (.safe .held) s
  rw [e]
  constructor
  · constructor <;> simp [State.answered, State.reported, State.echoed]
    exact fun a b _ _ => ⟨a, b⟩
  · constructor <;> simp [h, c, stepStands_iff]
    · exact not_idle_of_wait
    · intros; contradiction

/-- A safe drive is outstanding targets and a hand-in. -/
theorem formSafeDrive_eq (s : State) : ∃ x d o, formSafeDrive s =
    { s with csd.pending := x, csd.drive := d, csd.passDue := true, mdc.outstanding := o } := ⟨_, _, _, rfl⟩

theorem completeSafe_kept {s t : State} (h : completeSafe s = some t) : Kept s t := by
  unfold completeSafe at h
  split at h
  · rename_i c
    have m : s.mdc.mode = .safe .driving := by
      simp only [safeComplete, Bool.and_eq_true, beq_iff_eq] at c
      exact c.1.1.1
    split at h <;> cases h
    · obtain ⟨x, d, o, e⟩ := formSafeDrive_eq { s with mdc.redrive := false }
      rw [e]
      constructor
      · exact .ofSame rfl rfl rfl rfl rfl rfl rfl rfl rfl
      · constructor <;> simp [c, stepStands_iff]
        · exact not_idle_of_wait
        · intros; contradiction
    · exact setMode_held_kept s m c
  · cases h

theorem endHold_kept {s t : State} (h : endHold s = some t) : Kept s t := by
  unfold endHold at h
  split at h
  · rename_i c
    cases h
    refine ⟨?_, .ofSame rfl rfl rfl rfl rfl rfl rfl rfl rfl⟩
    simp only [Bool.and_eq_true, Bool.not_eq_true'] at c
    constructor <;> simp [State.reported, State.echoed, c.1, c.2]
  · cases h

theorem offerAnswer_kept {s t : State} (h : offerAnswer s = some t) : Kept s t := by
  unfold offerAnswer at h
  split at h
  · rename_i f hf hr
    cases h
    refine ⟨?_, .ofSame rfl rfl rfl rfl rfl rfl rfl rfl rfl⟩
    constructor <;> simp [State.reported, State.echoed, hf]
    intro _ g hg
    simp only [State.answered, hf, hr] at hg ⊢
    rcases hg with hg | hg | hg
    · cases hg; simp
    · cases hg
    · simp [hg]
  · cases h

/-- Entering IDLE touches the Step Engine's record of the step and the idle-lead timer alone. -/
theorem enterIdle_eq (s : State) : ∃ l m, enterIdle s =
    { s with
      ste.st := .idle
      ste.ident := none
      ste.snapshot := none
      ste.changing := Targets.none
      ste.landed := Vector.replicate 48 false
      vfu.idleLead := l
      vfu.idleMark := m } := by
  unfold enterIdle startIdleLead
  dsimp only
  split
  · split <;> exact ⟨_, _, rfl⟩
  · exact ⟨_, _, rfl⟩

/-- An engine that enters IDLE rests. -/
theorem enterIdle_rests (s : State) : (enterIdle s).Rests := by
  unfold enterIdle startIdleLead
  dsimp only
  constructor <;> split <;> (try split) <;> simp_all [Targets.none]

theorem offerReport_kept {s t : State} (h : offerReport s = some t) : Kept s t := by
  unfold offerReport at h
  split at h
  · rename_i f hs hf hr
    cases h
    have i := enterIdle_rests { s with rtq.report := some f, ste.report := none }
    obtain ⟨l, m, e⟩ := enterIdle_eq { s with rtq.report := some f, ste.report := none }
    rw [e] at i ⊢
    constructor
    · constructor <;> simp [State.answered, State.reported, State.echoed, hf, hr, State.reportBarred]
      exact fun a b _ _ => ⟨a, b⟩
    · constructor <;> simp [hs, hf]
      · exact i
      · exact id
      · intros; contradiction
  · cases h

/-! ## The chain side -/

/-- A change of the ports that the mark comparisons make: marks sent, on the fibre or waiting. -/
theorem compareFwd_eq (s : State) : ∃ m w l, s.lnk.a.wire <:+ w ∧ compareFwd s =
    { s with lnk.sentFwd := m, lnk.a.wire := w, lnk.a.marksWaiting := l } := by
  unfold compareFwd PortState.sendMark
  dsimp only
  split
  · exact ⟨s.lnk.sentFwd, s.lnk.a.wire, s.lnk.a.marksWaiting, List.suffix_refl _, rfl⟩
  · split
    · exact ⟨_, s.lnk.a.wire, s.lnk.a.marksWaiting, List.suffix_refl _, rfl⟩
    · split
      · exact ⟨_, _, s.lnk.a.marksWaiting, List.suffix_cons _ _, rfl⟩
      · exact ⟨_, s.lnk.a.wire, _, List.suffix_refl _, rfl⟩

theorem compareRet_eq (s : State) : ∃ m w l, s.lnk.b.wire <:+ w ∧ compareRet s =
    { s with lnk.sentRet := m, lnk.b.wire := w, lnk.b.marksWaiting := l } := by
  unfold compareRet PortState.sendMark
  dsimp only
  split
  · exact ⟨s.lnk.sentRet, s.lnk.b.wire, s.lnk.b.marksWaiting, List.suffix_refl _, rfl⟩
  · split
    · exact ⟨_, s.lnk.b.wire, s.lnk.b.marksWaiting, List.suffix_refl _, rfl⟩
    · split
      · exact ⟨_, _, s.lnk.b.marksWaiting, List.suffix_cons _ _, rfl⟩
      · exact ⟨_, s.lnk.b.wire, _, List.suffix_refl _, rfl⟩

theorem compareFwd_kept (s : State) : Kept s (compareFwd s) := by
  obtain ⟨m, w, l, x, e⟩ := compareFwd_eq s
  rw [e]
  refine ⟨?_, .ofSame rfl rfl rfl rfl rfl rfl rfl rfl rfl⟩
  constructor <;> simp [State.answered, State.reported, State.echoed, x]
  exact fun a b _ _ => ⟨a, b⟩

theorem compareRet_kept (s : State) : Kept s (compareRet s) := by
  obtain ⟨m, w, l, x, e⟩ := compareRet_eq s
  rw [e]
  refine ⟨?_, .ofSame rfl rfl rfl rfl rfl rfl rfl rfl rfl⟩
  constructor <;> simp [State.answered, State.reported, State.echoed, x]
  exact fun a b _ _ => ⟨a, b⟩

theorem departFwd_kept (s : State) (d : s.lnk.b.link = .down) (x : FwdEntry) (r : x.status = .released)
    (m : s.fwq.queue.head? = some x) : Kept s (departFwd s) := by
  unfold departFwd
  refine Kept.trans ?_ (compareFwd_kept _)
  refine ⟨?_, .ofSame rfl rfl rfl rfl rfl rfl rfl rfl rfl⟩
  constructor <;> simp [State.answered, State.reported, State.echoed, List.tail_suffix, d] <;>
    try (intro a b r m; exact ⟨a, b⟩)
  intro k; exact absurd r (k x m)

/-- A frame joins the Return Queue. -/
theorem appendRet_kept (f : Frame) (own : Bool) (s : State) : Kept s (appendRet f own s) := by
  unfold appendRet
  refine Kept.trans ?_ (compareRet_kept _)
  refine ⟨?_, .ofSame rfl rfl rfl rfl rfl rfl rfl rfl rfl⟩
  constructor <;> simp [State.answered, State.reported, State.echoed] <;> try (intro a b r m; exact ⟨a, b⟩)
  · intro _ f h; rcases h with h | h | h <;> simp [h]
  · intro f h; rcases h with h | h | h <;> simp [h]
  · intro f h; rcases h with h | h <;> simp [h]

theorem dealAtChainEnd_kept {s t : State} (h : dealAtChainEnd s = some t) : Kept s t := by
  unfold dealAtChainEnd at h
  split at h
  · rename_i x l hb hq
    split at h
    · rename_i hx
      split at h
      · split at h
        · rename_i r
          cases h
          refine Kept.trans ?_ (departFwd_kept _ hb x hx (by simp [hq]))
          refine ⟨?_, .ofSame rfl rfl rfl rfl rfl rfl rfl rfl rfl⟩
          constructor <;> simp [State.answered, State.reported, State.echoed, r] <;>
            try (intro a b r m; exact ⟨a, b⟩)
          intro f x; exact .inr x
        · cases h
      · cases h
        refine Kept.trans ?_ (departFwd_kept _ hb x hx (by simp [countEndDiscard, hq]))
        refine ⟨?_, .ofSame rfl rfl rfl rfl rfl rfl rfl rfl rfl⟩
        constructor <;> simp [countEndDiscard, State.answered, State.reported, State.echoed]
        · simp [hb, hq, hx]
        · exact fun a b _ _ => ⟨a, b⟩
    · cases h
  · cases h

/-- A step frame that R49 keeps waiting is not taken. -/
theorem treatHead_waits {s : State} (h : s.stepWaits) {x : FwdEntry} {l : List FwdEntry} (q : s.fwq.queue = x :: l) :
    treatHead x s = none := by
  obtain ⟨m, a, y, l', q', w, k, b⟩ := h
  rw [q] at q'; cases q'
  have o : ordinaryTake s = false := by
    unfold ordinaryTake Csd.latchEmpty
    unfold State.stepBarred Ste.holdsStep at b
    rcases b with b | b | b | b <;> simp_all
    split at b <;> simp_all
  have p : preemptiveTake s x.frame = false := by
    unfold preemptiveTake Csd.latchEmpty
    unfold State.stepBarred at b
    rcases b with b | b | ⟨_, b | b⟩ | b <;> simp_all [State.reportBarred]
  simp [treatHead, k, a, m, offerStep, o, p]

/-- With a still front, examining the head is dealing with a released one at the chain end. -/
theorem examineHead_still {s t : State} (q : s.frontStill) (h : examineHead s = some t) : dealAtChainEnd s = some t := by
  unfold examineHead at h
  split at h
  · rename_i x l m hx
    split at h
    · exact h
    · cases h
    · rename_i w
      rcases q with q | ⟨⟨r, q⟩, _⟩ | ⟨y, l', q, k⟩ | q
      · exact absurd w (q x (by simp [hx]))
      · rw [m] at q; cases q
      · rw [hx] at q; cases q; simp [w] at k
      · rw [treatHead_waits q hx] at h; cases h
  · cases h

theorem startTxA_kept {s t : State} (h : startTxA s = some t) : Kept s t := by
  unfold startTxA at h
  split at h
  · rename_i c
    split at h <;> cases h
    refine ⟨?_, .ofSame rfl rfl rfl rfl rfl rfl rfl rfl rfl⟩
    constructor <;> simp [PortState.start, State.answered, State.reported, State.echoed, c.1, c.2.1]
    exact fun a b _ _ => ⟨a, b⟩
  · cases h

theorem startTxB_kept {s t : State} (h : startTxB s = some t) : Kept s t := by
  unfold startTxB at h
  split at h
  · rename_i c
    split at h
    · cases h
      refine ⟨?_, .ofSame rfl rfl rfl rfl rfl rfl rfl rfl rfl⟩
      constructor <;> simp [PortState.start, State.answered, State.reported, State.echoed, c.1, c.2]
      exact fun a b _ _ => ⟨a, b⟩
    · split at h
      · split at h <;> cases h
        refine ⟨?_, .ofSame rfl rfl rfl rfl rfl rfl rfl rfl rfl⟩
        constructor <;> simp [PortState.start, State.answered, State.reported, State.echoed, c.1, c.2]
        exact fun a b _ _ => ⟨a, b⟩
      · cases h
  · cases h

/-- An outbox frame that is admitted stands in the Return Queue. -/
theorem appendRet_mem (f : Frame) (own : Bool) (s : State) :
    { frame := f, own := own } ∈ (appendRet f own s).rtq.queue := by
  unfold appendRet
  obtain ⟨m, w, l, _, e⟩ := compareRet_eq { s with rtq.queue := s.rtq.queue ++ [{ frame := f, own := own }] }
  rw [e]
  simp

theorem passAlert_kept (s : State) : Kept s (passAlert s) := by
  unfold passAlert
  split
  · split
    · refine Kept.trans ?_ (appendRet_kept _ _ _)
      refine ⟨?_, .ofSame rfl rfl rfl rfl rfl rfl rfl rfl rfl⟩
      constructor <;> simp [State.answered, State.reported, State.echoed]
      exact fun a b _ _ => ⟨a, b⟩
    · exact .refl s
  · exact .refl s

theorem passResponse_kept (s : State) : Kept s (passResponse s) := by
  unfold passResponse
  split
  · rename_i f hf
    split
    · rename_i c0
      have c0 : s.rtq.responseHeld = false := by simp at c0; exact c0.2
      have k := appendRet_kept f true { s with rtq.response := none }
      have m := appendRet_mem f true { s with rtq.response := none }
      have o : KeptMatrix s { s with rtq.response := none } := .ofSame rfl rfl rfl rfl rfl rfl rfl rfl rfl
      refine ⟨?_, o.trans k.2⟩
      have c := k.1
      exact
        { c with
          unheld := c.unheld
          held := fun a => by rw [c0] at a; cases a
          answers := fun e g x => by
            rcases x with x | x | x
            · exact c.answers e g (.inl x)
            · rw [hf] at x; cases x; exact .inr (.inr m)
            · exact c.answers e g (.inr (.inr x))
          reports := c.reports
          echoes := c.echoes }
    · exact .refl s
  · exact .refl s

theorem passEcho_kept (s : State) : Kept s (passEcho s) := by
  unfold passEcho
  split
  · rename_i f hf
    split
    · have k := appendRet_kept f true { s with rtq.echo := none }
      have m := appendRet_mem f true { s with rtq.echo := none }
      have o : KeptMatrix s { s with rtq.echo := none } := .ofSame rfl rfl rfl rfl rfl rfl rfl rfl rfl
      refine ⟨?_, o.trans k.2⟩
      have c := k.1
      exact
        { c with
          echoes := fun g x => by
            rcases x with x | x
            · rw [hf] at x; cases x; exact .inr m
            · exact c.echoes g (.inr x) }
    · exact .refl s
  · exact .refl s

theorem passReport_kept (s : State) : Kept s (passReport s) := by
  unfold passReport
  split
  · rename_i f hf
    split
    · rename_i room
      have k := appendRet_kept f true { s with rtq.report := none }
      have m := appendRet_mem f true { s with rtq.report := none }
      have o : KeptMatrix s { s with rtq.report := none } := .ofSame rfl rfl rfl rfl rfl rfl rfl rfl rfl
      refine ⟨?_, o.trans k.2⟩
      have c := k.1
      exact
        { c with
          barred := fun b => by
            have := b.2
            have := of_decide_eq_true room
            simp only [State.retFree, Config.retCapacity] at this
            omega
          reports := fun g x => by
            rcases x with x | x | x
            · exact c.reports g (.inl x)
            · rw [hf] at x; cases x; exact .inr (.inr m)
            · exact c.reports g (.inr (.inr x)) }
    · exact .refl s
  · exact .refl s

theorem admissionPass_kept {s t : State} (h : admissionPass s = some t) : Kept s t := by
  unfold admissionPass at h
  split at h <;> cases h
  exact (((passAlert_kept s).trans (passResponse_kept _)).trans (passEcho_kept _)).trans (passReport_kept _)

theorem chooseVerify_kept {s t : State} (q : s.frontStill) (h : chooseVerify s = some t) : Kept s t := by
  unfold chooseVerify at h
  split at h
  · cases h
  · rename_i v hv _
    cases h; exact verifyAction_kept hv
  · rename_i v x hv hx
    split at h
    · split at h <;> cases h
      · exact (verifyAction_kept hv).trans (.chose v)
      · exact (dealAtChainEnd_kept (examineHead_still q hx)).trans (.chose x)
    · cases h; exact verifyAction_kept hv

/-! ## All reactions -/

theorem react_kept {s t : State} (q : s.frontStill) (h : react s = some t) : Kept s t := by
  rcases react_cases h with h | h | h | h | h | h | h | h | h | h | h
  · exact restartEvaluation_kept h
  · exact makePass_kept h
  · exact chooseVerify_kept q h
  · exact completeSafe_kept h
  · exact endHold_kept h
  · exact offerAnswer_kept h
  · exact offerReport_kept h
  · exact dealAtChainEnd_kept (examineHead_still q h)
  · exact admissionPass_kept h
  · exact startTxB_kept h
  · exact startTxA_kept h

/-- A queue that only loses frames from its front stays quiet. -/
theorem KeptChain.quiet {s t : State} (h : KeptChain s t) (q : s.headQuiet) : t.headQuiet :=
  fun x m => q x (h.forward.subset m)

/-- A barred report outbox stays barred. -/
theorem KeptChain.stillBarred {s t : State} (h : KeptChain s t) (b : s.reportBarred) : t.reportBarred :=
  ⟨by rw [(h.barred b).1]; exact b.1, by have := h.back.length_le; rw [h.straps.2.1]; exact b.2.trans (by omega)⟩

/-- A step frame that R49 keeps waiting goes on waiting. -/
theorem Kept.stepWaits {s t : State} (h : Kept s t) (q : s.stepWaits) : t.stepWaits := by
  obtain ⟨m, a, x, l, q, w, k, b⟩ := q
  have e : t.fwq.queue = s.fwq.queue := (h.1.forwardKept (.inr (by rw [q]; intro y z; cases z; rw [w]; decide))).1
  refine ⟨?_, by unfold Lnk.transparent at *; simpa only [h.1.straps.1] using a, x, l, e.trans q, w, k, ?_⟩
  · rcases h.2.mode with n | n
    · exact n.trans m
    · rw [m] at n; cases n.1
  · have st : s.ste.st ≠ .reportWait → t.ste.st = s.ste.st := fun n => h.2.engine.resolve_right (fun z => n z.1)
    rcases b with b | b | ⟨b, c⟩ | ⟨b, c⟩
    · exact .inl (by rw [h.2.recovery.2.1]; exact b)
    · exact .inr (.inl ((st (by rw [b]; decide)).trans b))
    · have n : s.ste.st ≠ .reportWait := by intro z; rw [Ste.holdsStep, z] at b; cases b
      exact .inr (.inr (.inl ⟨by unfold Ste.holdsStep at b ⊢; rw [st n]; exact b, c.imp_right h.1.stillBarred⟩))
    · refine .inr (.inr (.inr ?_))
      rcases c with c | c
      · have w : t.ste.st = .reportWait := by
          rcases h.2.engine with z | z
          · exact z.trans b
          · exact absurd c (h.2.placed b z.2).2.2
        exact ⟨w, .inl ((h.2.step (.inr w)).step.2.2.2.2.trans c)⟩
      · exact ⟨(h.1.barred c).2 b, .inr (h.1.stillBarred c)⟩

/-- A still front stays still. -/
theorem Kept.still {s t : State} (k : Kept s t) (q : s.frontStill) : t.frontStill := by
  have h := k.1
  rcases q with q | ⟨⟨r, q⟩, n⟩ | ⟨x, l, q, k⟩ | q
  · exact .inl (h.quiet q)
  · exact .inr (.inl ⟨⟨r, h.agentServing n r q⟩, h.unheld n⟩)
  · have e := (h.forwardKept (by
      rcases k with k | ⟨_, k⟩
      · right; rw [q]; intro y m; cases m; rw [k]; decide
      · exact .inl k)).1
    exact .inr (.inr (.inl ⟨x, l, e.trans q, by rw [h.links.2]; exact k⟩))
  · exact .inr (.inr (.inr (k.stepWaits q)))

theorem settle_kept (n : Nat) (s : State) (q : s.frontStill) : Kept s (settle n s) :=
  (settle_keeps (P := State.frontStill) (R := Kept) Kept.refl (fun _ _ _ => Kept.trans)
    (fun _ _ p h => ⟨(react_kept p h).still p, react_kept p h⟩) n s q).2

/-- What the consequences of an event leave alone. -/
theorem settled_kept (s : State) (q : s.frontStill) : KeptChain s (settled s) ∧ KeptMatrix s (settled s) :=
  settle_kept _ s q

end Sys2Proof.Machine
end

