-- ==== Sys2Proof/Laws/Arrive.lean ====
section
/-! SUPPORT. A management command that reaches an idle agent is handed and served in the event of its arrival. -/

namespace Sys2Proof.Machine

/-- The level conditions have been read: nothing stands before the effect of an event. -/
theorem event_running (effect : State → State) {s : State} (h : s.running) : event effect s = settled (effect s) := by
  simp [event, levelRead, h.1, h.2]

/-- A state with another Forward Queue, and perhaps a mark sent about it. -/
def State.requeued (s : State) (m : Mark) (w : List WireItem) (l : List Mark) (q : List FwdEntry) : State :=
  { s with lnk.sentFwd := m, lnk.a.wire := w, lnk.a.marksWaiting := l, fwq.queue := q }

/-- What an arriving request finds: the state at its instant with the request in service. -/
def State.serving (s : State) (h : ReqHead) (payload : List Byte) : State :=
  { s with now := max s.now h.time, mga := .serving { tag := h.tag, payload := payload } }

theorem compareFwd_requeued (s : State) (q : List FwdEntry) :
    ∃ m w l, s.lnk.a.wire <:+ w ∧ compareFwd { s with fwq.queue := q } = s.requeued m w l q := by
  obtain ⟨m, w, l, x, h⟩ := compareFwd_eq { s with fwq.queue := q }
  exact ⟨m, w, l, x, h⟩

/-- The head leaves a queue of one. -/
theorem departFwd_requeued (s : State) (m : Mark) (w : List WireItem) (l : List Mark) (x : FwdEntry) :
    ∃ m' w' l', w <:+ w' ∧ departFwd (s.requeued m w l [x]) = s.requeued m' w' l' [] := by
  obtain ⟨m', w', l', y, h⟩ := compareFwd_requeued (s.requeued m w l [x]) []
  exact ⟨m', w', l', y, h⟩

/-- A frame appended to an empty queue. -/
theorem appendFwd_first (f : Frame) (s : State) (e : s.fwq.queue = []) :
    ∃ m w l, s.lnk.a.wire <:+ w ∧
      appendFwd f s = s.requeued m w l [{ frame := f, status := .waiting, own := false }] := by
  obtain ⟨m, w, l, y, h⟩ := compareFwd_requeued s [{ frame := f, status := .waiting, own := false }]
  refine ⟨m, w, l, y, ?_⟩
  rw [← h]
  unfold appendFwd
  rw [e]
  rfl

section
variable {s : State} (m : Mark) (w : List WireItem) (l : List Mark) (q : List FwdEntry)

theorem restartEvaluation_requeued (p : restartEvaluation s = none) :
    restartEvaluation (s.requeued m w l q) = none := by
  have k : ∀ v : Evaluation, v.outdated (s.requeued m w l q) = v.outdated s := fun _ => rfl
  have r : (s.requeued m w l q).rev = s.rev := rfl
  unfold restartEvaluation at p ⊢
  rw [r]
  cases hv : s.rev.evaluation with
  | none => rfl
  | some v =>
    rw [hv] at p
    dsimp only at p ⊢
    rw [k]
    split at p
    · cases p
    · rename_i o; rw [if_neg o]

theorem passDue_of_complete (p : makePass s = none) : s.csd.passDue = false := by
  unfold makePass at p
  split at p
  · repeat' split at p
    all_goals cases p
  · rename_i o; simpa using o

theorem verifyAction_of_complete (p : chooseVerify s = none) : verifyAction s = none := by
  unfold chooseVerify at p
  split at p
  · assumption
  · cases p
  · repeat' split at p
    all_goals cases p

theorem verifyAction_requeued (p : verifyAction s = none) : verifyAction (s.requeued m w l q) = none := by
  have a : (s.requeued m w l q).vfu = s.vfu := rfl
  have b : (s.requeued m w l q).csd = s.csd := rfl
  have n : (s.requeued m w l q).now = s.now := rfl
  have c : verifyChoice (s.requeued m w l q) = verifyChoice s := rfl
  unfold verifyAction at p ⊢
  rw [a]
  cases hv : s.vfu.activity with
  | free =>
    rw [hv] at p
    dsimp only at p ⊢
    rw [c]
    rw [Option.map_eq_none_iff] at p ⊢
    exact p
  | claimed x k =>
    rw [hv] at p
    dsimp only at p ⊢
    rw [b, n]
    split at p
    · cases p
    · rename_i o; rw [if_neg o]
  | verifying x k d => rfl

theorem completeSafe_requeued (p : completeSafe s = none) : completeSafe (s.requeued m w l q) = none := by
  have k : safeComplete (s.requeued m w l q) = safeComplete s := rfl
  unfold completeSafe at p ⊢
  rw [k]
  split at p
  · split at p <;> cases p
  · rename_i o; rw [if_neg o]

theorem endHold_requeued (p : endHold s = none) : endHold (s.requeued m w l q) = none := by
  unfold endHold at p ⊢
  split at p
  · cases p
  · rename_i o; exact if_neg o

theorem offerReport_requeued (p : offerReport s = none) : offerReport (s.requeued m w l q) = none := by
  have a : (s.requeued m w l q).ste = s.ste := rfl
  have b : (s.requeued m w l q).rtq = s.rtq := rfl
  unfold offerReport at p ⊢
  rw [a, b]
  cases h1 : s.ste.st <;> cases h2 : s.ste.report <;> cases h3 : s.rtq.report <;> simp_all

end

/-- Nothing is due before the head is examined, where nothing was due before a frame came. -/
theorem react_arrival {s : State} (c : s.complete) (i : s.mga = .idle) (x : FwdEntry) (m : Mark) (w : List WireItem)
    (l : List Mark) (hx : x.status = .waiting) {t : State} (ht : treatHead x (s.requeued m w l [x]) = some t) :
    react (s.requeued m w l [x]) = some t := by
  obtain ⟨p1, p2, p3, p4, p5, p6, p7, _, _, _, _⟩ := complete_parts c
  have q1 := restartEvaluation_requeued m w l [x] p1
  have d : (s.requeued m w l [x]).csd.passDue = false := passDue_of_complete (s := s) p2
  have q2 : makePass (s.requeued m w l [x]) = none := by simp [makePass, d]
  have q3 : chooseVerify (s.requeued m w l [x]) = none := by
    simp [chooseVerify, verifyAction_requeued m w l [x] (verifyAction_of_complete p3)]
  have q4 := completeSafe_requeued m w l [x] p4
  have q5 := endHold_requeued m w l [x] p5
  have g : (s.requeued m w l [x]).mga = .idle := i
  have q6 : offerAnswer (s.requeued m w l [x]) = none := by simp [offerAnswer, g]
  have q7 := offerReport_requeued m w l [x] p7
  have u : (s.requeued m w l [x]).fwq.queue = [x] := rfl
  have q8 : examineHead (s.requeued m w l [x]) = some t := by
    unfold examineHead
    rw [g, u]
    dsimp only
    rw [hx]
    exact ht
  simp [react, q1, q2, q3, q4, q5, q6, q7, q8]

/-- A request that is handed is served. -/
theorem handRequest_ok (f : Frame) (s : State) {d : Decoded} (h : decodeRequest f.payload = .ok d) :
    handRequest f s = serve d { s with mga := .serving { tag := f.tag, payload := f.payload } } := by
  simp [handRequest, h]

/-- Only a broadcast SOFT_RESET may have its copy begun before it is served (R154). -/
theorem beginCopy_other {f : Frame} (n : asksSoftReset f = false) (s : State) : beginCopy f s = s := by
  simp [beginCopy, n]

/-- A copy that is begun stands in Port B's transmitter; nothing else but the choice counter changes. -/
theorem beginCopy_cases (f : Frame) (s : State) :
    beginCopy f s = s ∨ beginCopy f s = s.chose ∨ ∃ t, startTxB s = some t ∧ beginCopy f s = t.chose := by
  unfold beginCopy
  split
  · split
    · exact .inl rfl
    · rename_i t ht
      split
      · exact .inr (.inr ⟨t, ht, rfl⟩)
      · exact .inr (.inl rfl)
  · exact .inl rfl

/-- A request that reaches the agent, other than a broadcast SOFT_RESET, is served at once: the consequences are drawn from the state in which it has been
served, or, for a broadcast request at the chain end, from that state with the forward copy dealt with. -/
theorem request_served {s : State} {h : ReqHead} (r : Reaches s h) (payload : List Byte) {d : Decoded}
    (hd : decodeRequest payload = .ok d) (nr : h.dest = broadcast → ∀ arg, d ≠ .command .softReset arg) :
    ∃ m w l q, s.lnk.a.wire <:+ w ∧
      (q = if h.dest = broadcast then
        [{ frame := requestFrame s.lnk h payload, status := .released, own := false }] else []) ∧ ∃ e,
      (e = serve d ((s.serving h payload).requeued m w l q) ∨
        dealAtChainEnd (serve d ((s.serving h payload).requeued m w l q)) = some e) ∧
      event (requestArrives h payload) s = settle 4095 e := by
  have hk : (requestFrame s.lnk h payload).kind = kindRequest := rfl
  have tr : s.lnk.transparent = false := r.addressed
  rw [event_running _ r.running]
  have a : requestArrives h payload s = appendFwd (requestFrame s.lnk h payload) (s.advance h.time) := by
    unfold requestArrives
    rw [r.link]
    dsimp only [placeFrame]
    rw [if_neg (by rw [hk]; decide)]
    unfold receiveFwd
    have z : (s.advance h.time).fwq.queue = [] := r.empty
    rw [if_pos (by rw [z]; decide)]
  obtain ⟨m, w, l, y, e⟩ := appendFwd_first (requestFrame s.lnk h payload) (s.advance h.time) r.empty
  rw [a, e]
  obtain ⟨x, hx⟩ : ∃ x : FwdEntry, x = { frame := requestFrame s.lnk h payload, status := .waiting, own := false } :=
    ⟨_, rfl⟩
  rw [← hx]
  have hf : x.frame = requestFrame s.lnk h payload := by rw [hx]
  have step : ∀ t, treatHead x ((s.advance h.time).requeued m w l [x]) = some t →
      settled ((s.advance h.time).requeued m w l [x]) = settle 4095 t := by
    intro t k
    have := react_arrival r.complete (by exact r.idle) x m w l (by rw [hx]) k
    unfold settled Config.settleFuel
    rw [settle, this]
  have ns : x.frame.isStep = false := by
    unfold Frame.isStep
    rw [hf, hk]
    have : (kindRequest == kindStep) = false := by decide
    rw [this]; rfl
  have lk : ∀ f dst, requestFor ((s.advance h.time).requeued m w l [x]).lnk f dst = requestFor s.lnk f dst :=
    fun _ _ => rfl
  have la : ((s.advance h.time).requeued m w l [x]).lnk.addrByte = s.lnk.addrByte := rfl
  have pl : decodeRequest x.frame.payload = .ok d := by rw [hf]; exact hd
  by_cases own : h.dest = s.lnk.addrByte
  · have t1 : requestFor s.lnk x.frame s.lnk.addrByte = true := by
      unfold requestFor
      rw [hf, tr]
      simp [requestFrame, own]
    obtain ⟨m', w', l', y', e'⟩ := departFwd_requeued (s.advance h.time) m w l x
    have nb : h.dest ≠ broadcast := by
      intro k
      rw [own] at k
      have := congrArg BitVec.toNat k
      simp [Lnk.addrByte, broadcast] at this
      have z : s.lnk.addr = 63#6 := by
        apply BitVec.eq_of_toNat_eq
        have := s.lnk.addr.isLt
        simp
        omega
      simp [Lnk.transparent, z] at tr
    refine ⟨m', w', l', [], y.trans y', (if_neg nb).symm, _, .inl rfl, step _ ?_⟩
    unfold treatHead
    rw [ns]
    simp only [Bool.false_eq_true, if_false]
    rw [la, lk, if_pos t1, e', handRequest_ok _ _ pl, hf]
    rfl
  · have bc : h.dest = broadcast := r.destination.resolve_left own
    have t0 : requestFor s.lnk x.frame s.lnk.addrByte = false := by
      unfold requestFor
      rw [hf]
      simp [requestFrame, own]
    have t1 : requestFor s.lnk x.frame broadcast = true := by
      unfold requestFor
      rw [hf, tr]
      simp [requestFrame, bc]
    have step2 : treatHead x ((s.advance h.time).requeued m w l [x]) =
        some (handBroadcast x ((s.advance h.time).requeued m w l [x])) := by
      unfold treatHead
      rw [ns]
      simp only [Bool.false_eq_true, if_false]
      rw [la, lk, lk, t0, t1]
      rfl
    have hb : handBroadcast x ((s.advance h.time).requeued m w l [x]) =
        (dealAtChainEnd (serve d ((s.serving h payload).requeued m w l [{ x with status := .released }]))).getD
          (serve d ((s.serving h payload).requeued m w l [{ x with status := .released }])) := by
      have na : asksSoftReset x.frame = false := by
        unfold asksSoftReset
        rw [pl]
        cases d with
        | command c arg => cases c <;> first | rfl | exact absurd rfl (nr bc arg)
        | load => rfl
        | fetch => rfl
      unfold handBroadcast
      rw [beginCopy_other na, handRequest_ok _ _ pl, hf]
      rfl
    refine ⟨m, w, l, [{ x with status := .released }], y, ?_, _, ?_, step _ step2⟩
    · rw [if_pos bc, hx]
    rw [hb]
    cases k : dealAtChainEnd (serve d ((s.serving h payload).requeued m w l [{ x with status := .released }])) with
    | none => exact .inl rfl
    | some t => exact .inr rfl

/-- What a request that reaches the agent leaves: everything its service left, but for the consequences. -/
theorem request_kept {s : State} {h : ReqHead} (r : Reaches s h) (payload : List Byte) {d : Decoded}
    (hd : decodeRequest payload = .ok d) (nr : h.dest = broadcast → ∀ arg, d ≠ .command .softReset arg) :
    ∃ m w l q, s.lnk.a.wire <:+ w ∧
      (q = if h.dest = broadcast then
        [{ frame := requestFrame s.lnk h payload, status := .released, own := false }] else []) ∧
      ((serve d ((s.serving h payload).requeued m w l q)).frontStill →
        Kept (serve d ((s.serving h payload).requeued m w l q)) (event (requestArrives h payload) s)) := by
  obtain ⟨m, w, l, q, hw, hq, e, he, hs⟩ := request_served r payload hd nr
  refine ⟨m, w, l, q, hw, hq, fun k => ?_⟩
  rw [hs]
  rcases he with he | he
  · rw [he]; exact settle_kept _ _ k
  · have c := dealAtChainEnd_kept he
    exact c.trans (settle_kept _ _ (c.still k))

end Sys2Proof.Machine
end

