-- ==== Sys2Proof/Laws/CoilFrame.lean ====
section
/-! SUPPORT. Which blocks the operations of the Coil Scheduler leave alone: one frame lemma for each operation, true for every state. -/

namespace Sys2Proof.Machine

@[simp] theorem cancelPending_frame (s : State) :
    (cancelPending s).pending = s.pending ∧ (cancelPending s).now = s.now ∧ (cancelPending s).inReset = s.inReset ∧ (cancelPending s).choices = s.choices ∧ (cancelPending s).lnk = s.lnk ∧ (cancelPending s).fwq = s.fwq ∧ (cancelPending s).rtq = s.rtq ∧ (cancelPending s).mga = s.mga ∧ (cancelPending s).tbs = s.tbs ∧ (cancelPending s).rev = s.rev ∧ (cancelPending s).ste = s.ste ∧ (cancelPending s).vfu = s.vfu ∧ (cancelPending s).mdc = s.mdc ∧ (cancelPending s).evu = s.evu ∧ (cancelPending s).axu = s.axu := by
  simp [cancelPending]

@[simp] theorem handIn_frame (d : Drive) (x : Targets) (s : State) :
    (handIn d x s).pending = s.pending ∧ (handIn d x s).now = s.now ∧ (handIn d x s).inReset = s.inReset ∧ (handIn d x s).choices = s.choices ∧ (handIn d x s).lnk = s.lnk ∧ (handIn d x s).fwq = s.fwq ∧ (handIn d x s).rtq = s.rtq ∧ (handIn d x s).mga = s.mga ∧ (handIn d x s).tbs = s.tbs ∧ (handIn d x s).rev = s.rev ∧ (handIn d x s).ste = s.ste ∧ (handIn d x s).vfu = s.vfu ∧ (handIn d x s).mdc = s.mdc ∧ (handIn d x s).evu = s.evu ∧ (handIn d x s).axu = s.axu := by
  simp [handIn]

@[simp] theorem endPulse_frame (e : Elem) (p : Pulse) (s : State) :
    (endPulse e p s).pending = s.pending ∧ (endPulse e p s).now = s.now ∧ (endPulse e p s).inReset = s.inReset ∧ (endPulse e p s).choices = s.choices ∧ (endPulse e p s).lnk = s.lnk ∧ (endPulse e p s).fwq = s.fwq ∧ (endPulse e p s).rtq = s.rtq ∧ (endPulse e p s).mga = s.mga ∧ (endPulse e p s).tbs = s.tbs ∧ (endPulse e p s).rev = s.rev ∧ (endPulse e p s).ste = s.ste ∧ (endPulse e p s).vfu = s.vfu ∧ (endPulse e p s).mdc = s.mdc ∧ (endPulse e p s).evu = s.evu ∧ (endPulse e p s).axu = s.axu := by
  simp [endPulse]

@[simp] theorem landPulse_frame (e : Elem) (p : Pulse) (s : State) :
    (landPulse e p s).pending = s.pending ∧ (landPulse e p s).now = s.now ∧ (landPulse e p s).inReset = s.inReset ∧ (landPulse e p s).choices = s.choices ∧ (landPulse e p s).lnk = s.lnk ∧ (landPulse e p s).fwq = s.fwq ∧ (landPulse e p s).rtq = s.rtq ∧ (landPulse e p s).mga = s.mga ∧ (landPulse e p s).tbs = s.tbs ∧ (landPulse e p s).rev = s.rev ∧ (landPulse e p s).ste = s.ste ∧ (landPulse e p s).vfu = s.vfu ∧ (landPulse e p s).mdc = s.mdc ∧ (landPulse e p s).evu = s.evu ∧ (landPulse e p s).axu = s.axu := by
  simp [landPulse]

@[simp] theorem completeRecovery_frame (s : State) :
    (completeRecovery s).pending = s.pending ∧ (completeRecovery s).now = s.now ∧ (completeRecovery s).inReset = s.inReset ∧ (completeRecovery s).choices = s.choices ∧ (completeRecovery s).lnk = s.lnk ∧ (completeRecovery s).fwq = s.fwq ∧ (completeRecovery s).rtq = s.rtq ∧ (completeRecovery s).mga = s.mga ∧ (completeRecovery s).tbs = s.tbs ∧ (completeRecovery s).rev = s.rev ∧ (completeRecovery s).ste = s.ste ∧ (completeRecovery s).mdc = s.mdc ∧ (completeRecovery s).evu = s.evu ∧ (completeRecovery s).axu = s.axu := by
  unfold completeRecovery; split <;> simp

@[simp] theorem landRecovery_frame (e : Elem) (s : State) :
    (landRecovery e s).pending = s.pending ∧ (landRecovery e s).now = s.now ∧ (landRecovery e s).inReset = s.inReset ∧ (landRecovery e s).choices = s.choices ∧ (landRecovery e s).lnk = s.lnk ∧ (landRecovery e s).fwq = s.fwq ∧ (landRecovery e s).rtq = s.rtq ∧ (landRecovery e s).mga = s.mga ∧ (landRecovery e s).tbs = s.tbs ∧ (landRecovery e s).rev = s.rev ∧ (landRecovery e s).ste = s.ste ∧ (landRecovery e s).mdc = s.mdc ∧ (landRecovery e s).evu = s.evu ∧ (landRecovery e s).axu = s.axu := by
  unfold landRecovery; split <;> simp

@[simp] theorem cutPulse_frame (s : State) (e : Elem) :
    (cutPulse s e).pending = s.pending ∧ (cutPulse s e).now = s.now ∧ (cutPulse s e).inReset = s.inReset ∧ (cutPulse s e).choices = s.choices ∧ (cutPulse s e).lnk = s.lnk ∧ (cutPulse s e).fwq = s.fwq ∧ (cutPulse s e).rtq = s.rtq ∧ (cutPulse s e).mga = s.mga ∧ (cutPulse s e).tbs = s.tbs ∧ (cutPulse s e).rev = s.rev ∧ (cutPulse s e).ste = s.ste ∧ (cutPulse s e).vfu = s.vfu ∧ (cutPulse s e).mdc = s.mdc ∧ (cutPulse s e).evu = s.evu ∧ (cutPulse s e).axu = s.axu := by
  unfold cutPulse; split <;> simp

@[simp] theorem foldCut_frame (l : List Elem) (s : State) :
    (l.foldl cutPulse s).pending = s.pending ∧ (l.foldl cutPulse s).now = s.now ∧ (l.foldl cutPulse s).inReset = s.inReset ∧ (l.foldl cutPulse s).choices = s.choices ∧ (l.foldl cutPulse s).lnk = s.lnk ∧ (l.foldl cutPulse s).fwq = s.fwq ∧ (l.foldl cutPulse s).rtq = s.rtq ∧ (l.foldl cutPulse s).mga = s.mga ∧ (l.foldl cutPulse s).tbs = s.tbs ∧ (l.foldl cutPulse s).rev = s.rev ∧ (l.foldl cutPulse s).ste = s.ste ∧ (l.foldl cutPulse s).vfu = s.vfu ∧ (l.foldl cutPulse s).mdc = s.mdc ∧ (l.foldl cutPulse s).evu = s.evu ∧ (l.foldl cutPulse s).axu = s.axu := by
  refine ⟨?_, ?_, ?_, ?_, ?_, ?_, ?_, ?_, ?_, ?_, ?_, ?_, ?_, ?_, ?_⟩ <;>
  (induction l generalizing s with | nil => rfl | cons e l ih => simp [List.foldl, ih])

@[simp] theorem discardLatch_frame (s : State) :
    (discardLatch s).pending = s.pending ∧ (discardLatch s).now = s.now ∧ (discardLatch s).inReset = s.inReset ∧ (discardLatch s).choices = s.choices ∧ (discardLatch s).lnk = s.lnk ∧ (discardLatch s).fwq = s.fwq ∧ (discardLatch s).rtq = s.rtq ∧ (discardLatch s).mga = s.mga ∧ (discardLatch s).tbs = s.tbs ∧ (discardLatch s).rev = s.rev ∧ (discardLatch s).ste = s.ste ∧ (discardLatch s).vfu = s.vfu ∧ (discardLatch s).mdc = s.mdc ∧ (discardLatch s).evu = s.evu ∧ (discardLatch s).axu = s.axu := by
  simp [discardLatch]

@[simp] theorem removeLanded_frame (b : Bank) (s : State) :
    (removeLanded b s).pending = s.pending ∧ (removeLanded b s).now = s.now ∧ (removeLanded b s).inReset = s.inReset ∧ (removeLanded b s).choices = s.choices ∧ (removeLanded b s).lnk = s.lnk ∧ (removeLanded b s).fwq = s.fwq ∧ (removeLanded b s).rtq = s.rtq ∧ (removeLanded b s).mga = s.mga ∧ (removeLanded b s).tbs = s.tbs ∧ (removeLanded b s).rev = s.rev ∧ (removeLanded b s).ste = s.ste ∧ (removeLanded b s).vfu = s.vfu ∧ (removeLanded b s).mdc = s.mdc ∧ (removeLanded b s).evu = s.evu ∧ (removeLanded b s).axu = s.axu := by
  simp [removeLanded]

@[simp] theorem formRecovery_frame (s : State) :
    (formRecovery s).pending = s.pending ∧ (formRecovery s).now = s.now ∧ (formRecovery s).inReset = s.inReset ∧
      (formRecovery s).choices = s.choices ∧ (formRecovery s).lnk = s.lnk ∧ (formRecovery s).fwq = s.fwq ∧
      (formRecovery s).rtq = s.rtq ∧ (formRecovery s).mga = s.mga ∧ (formRecovery s).tbs = s.tbs ∧
      (formRecovery s).rev = s.rev ∧ (formRecovery s).ste = s.ste ∧ (formRecovery s).vfu = s.vfu ∧
      (formRecovery s).mdc = s.mdc ∧ (formRecovery s).evu = s.evu ∧ (formRecovery s).axu = s.axu := by
  unfold formRecovery
  refine ⟨?_, ?_, ?_, ?_, ?_, ?_, ?_, ?_, ?_, ?_, ?_, ?_, ?_, ?_, ?_⟩ <;> (try dsimp only) <;> (repeat' split) <;> (try simp only [handIn_frame])

@[simp] theorem cutSupply_frame (s : State) :
    (cutSupply s).pending = s.pending ∧ (cutSupply s).now = s.now ∧ (cutSupply s).inReset = s.inReset ∧
      (cutSupply s).choices = s.choices ∧ (cutSupply s).lnk = s.lnk ∧ (cutSupply s).fwq = s.fwq ∧
      (cutSupply s).rtq = s.rtq ∧ (cutSupply s).mga = s.mga ∧ (cutSupply s).tbs = s.tbs ∧ (cutSupply s).rev = s.rev ∧
      (cutSupply s).ste = s.ste ∧ (cutSupply s).vfu = s.vfu ∧ (cutSupply s).mdc = s.mdc ∧ (cutSupply s).evu = s.evu ∧
      (cutSupply s).axu = s.axu := by
  unfold cutSupply
  refine ⟨?_, ?_, ?_, ?_, ?_, ?_, ?_, ?_, ?_, ?_, ?_, ?_, ?_, ?_, ?_⟩ <;> (try dsimp only) <;> (repeat' split) <;> (try simp only [cancelPending_frame, foldCut_frame])

end Sys2Proof.Machine
end

