-- ==== Sys2Proof/Laws/Verify.lean ====
section
/-! SUPPORT. Which blocks the operations of the Verify Unit leave alone: one frame lemma for each operation, true for every state. -/

namespace Sys2Proof.Machine

@[simp] theorem startSlot_frame (s : State) :
    (startSlot s).pending = s.pending ∧ (startSlot s).now = s.now ∧ (startSlot s).inReset = s.inReset ∧ (startSlot s).choices = s.choices ∧ (startSlot s).lnk = s.lnk ∧ (startSlot s).fwq = s.fwq ∧ (startSlot s).rtq = s.rtq ∧ (startSlot s).mga = s.mga ∧ (startSlot s).tbs = s.tbs ∧ (startSlot s).rev = s.rev ∧ (startSlot s).ste = s.ste ∧ (startSlot s).csd = s.csd ∧ (startSlot s).mdc = s.mdc ∧ (startSlot s).evu = s.evu ∧ (startSlot s).axu = s.axu := by
  simp [startSlot]

@[simp] theorem startIdleLead_frame (s : State) :
    (startIdleLead s).pending = s.pending ∧ (startIdleLead s).now = s.now ∧ (startIdleLead s).inReset = s.inReset ∧ (startIdleLead s).choices = s.choices ∧ (startIdleLead s).lnk = s.lnk ∧ (startIdleLead s).fwq = s.fwq ∧ (startIdleLead s).rtq = s.rtq ∧ (startIdleLead s).mga = s.mga ∧ (startIdleLead s).tbs = s.tbs ∧ (startIdleLead s).rev = s.rev ∧ (startIdleLead s).ste = s.ste ∧ (startIdleLead s).csd = s.csd ∧ (startIdleLead s).mdc = s.mdc ∧ (startIdleLead s).evu = s.evu ∧ (startIdleLead s).axu = s.axu := by
  unfold startIdleLead; split <;> simp

@[simp] theorem stopIdleLead_frame (s : State) :
    (stopIdleLead s).pending = s.pending ∧ (stopIdleLead s).now = s.now ∧ (stopIdleLead s).inReset = s.inReset ∧ (stopIdleLead s).choices = s.choices ∧ (stopIdleLead s).lnk = s.lnk ∧ (stopIdleLead s).fwq = s.fwq ∧ (stopIdleLead s).rtq = s.rtq ∧ (stopIdleLead s).mga = s.mga ∧ (stopIdleLead s).tbs = s.tbs ∧ (stopIdleLead s).rev = s.rev ∧ (stopIdleLead s).ste = s.ste ∧ (stopIdleLead s).csd = s.csd ∧ (stopIdleLead s).mdc = s.mdc ∧ (stopIdleLead s).evu = s.evu ∧ (stopIdleLead s).axu = s.axu := by
  simp [stopIdleLead]

@[simp] theorem stopVerifyTimers_frame (s : State) :
    (stopVerifyTimers s).pending = s.pending ∧ (stopVerifyTimers s).now = s.now ∧ (stopVerifyTimers s).inReset = s.inReset ∧ (stopVerifyTimers s).choices = s.choices ∧ (stopVerifyTimers s).lnk = s.lnk ∧ (stopVerifyTimers s).fwq = s.fwq ∧ (stopVerifyTimers s).rtq = s.rtq ∧ (stopVerifyTimers s).mga = s.mga ∧ (stopVerifyTimers s).tbs = s.tbs ∧ (stopVerifyTimers s).rev = s.rev ∧ (stopVerifyTimers s).ste = s.ste ∧ (stopVerifyTimers s).csd = s.csd ∧ (stopVerifyTimers s).mdc = s.mdc ∧ (stopVerifyTimers s).evu = s.evu ∧ (stopVerifyTimers s).axu = s.axu := by
  simp [stopVerifyTimers]

@[simp] theorem startVerify_frame (k : VerifyKind) (b : Bank) (s : State) :
    (startVerify k b s).pending = s.pending ∧ (startVerify k b s).now = s.now ∧ (startVerify k b s).inReset = s.inReset ∧ (startVerify k b s).choices = s.choices ∧ (startVerify k b s).lnk = s.lnk ∧ (startVerify k b s).fwq = s.fwq ∧ (startVerify k b s).rtq = s.rtq ∧ (startVerify k b s).mga = s.mga ∧ (startVerify k b s).tbs = s.tbs ∧ (startVerify k b s).rev = s.rev ∧ (startVerify k b s).ste = s.ste ∧ (startVerify k b s).csd = s.csd ∧ (startVerify k b s).mdc = s.mdc ∧ (startVerify k b s).evu = s.evu ∧ (startVerify k b s).axu = s.axu := by
  simp [startVerify]

@[simp] theorem takeBank_frame (k : VerifyKind) (b : Bank) (s : State) :
    (takeBank k b s).pending = s.pending ∧ (takeBank k b s).now = s.now ∧ (takeBank k b s).inReset = s.inReset ∧ (takeBank k b s).choices = s.choices ∧ (takeBank k b s).lnk = s.lnk ∧ (takeBank k b s).fwq = s.fwq ∧ (takeBank k b s).rtq = s.rtq ∧ (takeBank k b s).mga = s.mga ∧ (takeBank k b s).tbs = s.tbs ∧ (takeBank k b s).rev = s.rev ∧ (takeBank k b s).ste = s.ste ∧ (takeBank k b s).csd = s.csd ∧ (takeBank k b s).mdc = s.mdc ∧ (takeBank k b s).evu = s.evu ∧ (takeBank k b s).axu = s.axu := by
  unfold takeBank; split <;> simp

theorem verifyAction_frame (s : State) {t : State} (h : verifyAction s = some t) :
    t.pending = s.pending ∧ t.now = s.now ∧ t.inReset = s.inReset ∧ t.choices = s.choices ∧ t.lnk = s.lnk ∧ t.fwq = s.fwq ∧ t.rtq = s.rtq ∧ t.mga = s.mga ∧ t.tbs = s.tbs ∧ t.rev = s.rev ∧ t.ste = s.ste ∧ t.csd = s.csd ∧ t.mdc = s.mdc ∧ t.evu = s.evu ∧ t.axu = s.axu := by
  refine ⟨?_, ?_, ?_, ?_, ?_, ?_, ?_, ?_, ?_, ?_, ?_, ?_, ?_, ?_, ?_⟩ <;>
  (unfold verifyAction at h; (repeat' split at h) <;> (try simp only [Option.map_eq_some_iff] at h) <;> first | (simp at h; done) | (obtain ⟨x, _, rfl⟩ := h; simp))

@[simp] theorem releaseClaim_frame (k : VerifyKind) (s : State) :
    (releaseClaim k s).pending = s.pending ∧ (releaseClaim k s).now = s.now ∧ (releaseClaim k s).inReset = s.inReset ∧ (releaseClaim k s).choices = s.choices ∧ (releaseClaim k s).lnk = s.lnk ∧ (releaseClaim k s).fwq = s.fwq ∧ (releaseClaim k s).rtq = s.rtq ∧ (releaseClaim k s).mga = s.mga ∧ (releaseClaim k s).tbs = s.tbs ∧ (releaseClaim k s).rev = s.rev ∧ (releaseClaim k s).ste = s.ste ∧ (releaseClaim k s).mdc = s.mdc ∧ (releaseClaim k s).evu = s.evu ∧ (releaseClaim k s).axu = s.axu := by
  unfold releaseClaim
  repeat' split
  all_goals simp

@[simp] theorem orphanVerify_frame (k : VerifyKind) (s : State) :
    (orphanVerify k s).pending = s.pending ∧ (orphanVerify k s).now = s.now ∧ (orphanVerify k s).inReset = s.inReset ∧ (orphanVerify k s).choices = s.choices ∧ (orphanVerify k s).lnk = s.lnk ∧ (orphanVerify k s).fwq = s.fwq ∧ (orphanVerify k s).rtq = s.rtq ∧ (orphanVerify k s).mga = s.mga ∧ (orphanVerify k s).tbs = s.tbs ∧ (orphanVerify k s).rev = s.rev ∧ (orphanVerify k s).ste = s.ste ∧ (orphanVerify k s).csd = s.csd ∧ (orphanVerify k s).mdc = s.mdc ∧ (orphanVerify k s).evu = s.evu ∧ (orphanVerify k s).axu = s.axu := by
  unfold orphanVerify
  repeat' split
  all_goals simp

@[simp] theorem withdrawRecovery_frame (s : State) :
    (withdrawRecovery s).pending = s.pending ∧ (withdrawRecovery s).now = s.now ∧ (withdrawRecovery s).inReset = s.inReset ∧ (withdrawRecovery s).choices = s.choices ∧ (withdrawRecovery s).lnk = s.lnk ∧ (withdrawRecovery s).fwq = s.fwq ∧ (withdrawRecovery s).rtq = s.rtq ∧ (withdrawRecovery s).mga = s.mga ∧ (withdrawRecovery s).tbs = s.tbs ∧ (withdrawRecovery s).rev = s.rev ∧ (withdrawRecovery s).ste = s.ste ∧ (withdrawRecovery s).mdc = s.mdc ∧ (withdrawRecovery s).evu = s.evu ∧ (withdrawRecovery s).axu = s.axu := by
  simp [withdrawRecovery]

@[simp] theorem withdrawDebtForced_frame (s : State) :
    (withdrawDebtForced s).pending = s.pending ∧ (withdrawDebtForced s).now = s.now ∧ (withdrawDebtForced s).inReset = s.inReset ∧ (withdrawDebtForced s).choices = s.choices ∧ (withdrawDebtForced s).lnk = s.lnk ∧ (withdrawDebtForced s).fwq = s.fwq ∧ (withdrawDebtForced s).rtq = s.rtq ∧ (withdrawDebtForced s).mga = s.mga ∧ (withdrawDebtForced s).tbs = s.tbs ∧ (withdrawDebtForced s).rev = s.rev ∧ (withdrawDebtForced s).ste = s.ste ∧ (withdrawDebtForced s).mdc = s.mdc ∧ (withdrawDebtForced s).evu = s.evu ∧ (withdrawDebtForced s).axu = s.axu := by
  simp [withdrawDebtForced]

@[simp] theorem withdrawSequence_frame (s : State) :
    (withdrawSequence s).pending = s.pending ∧ (withdrawSequence s).now = s.now ∧ (withdrawSequence s).inReset = s.inReset ∧ (withdrawSequence s).choices = s.choices ∧ (withdrawSequence s).lnk = s.lnk ∧ (withdrawSequence s).fwq = s.fwq ∧ (withdrawSequence s).rtq = s.rtq ∧ (withdrawSequence s).mga = s.mga ∧ (withdrawSequence s).tbs = s.tbs ∧ (withdrawSequence s).rev = s.rev ∧ (withdrawSequence s).ste = s.ste ∧ (withdrawSequence s).mdc = s.mdc ∧ (withdrawSequence s).evu = s.evu ∧ (withdrawSequence s).axu = s.axu := by
  unfold withdrawSequence; split <;> simp

@[simp] theorem completeReading_frame (b : Bank) (x : List (BitVec 7)) (s : State) :
    (completeReading b x s).pending = s.pending ∧ (completeReading b x s).now = s.now ∧ (completeReading b x s).inReset = s.inReset ∧ (completeReading b x s).choices = s.choices ∧ (completeReading b x s).lnk = s.lnk ∧ (completeReading b x s).fwq = s.fwq ∧ (completeReading b x s).rtq = s.rtq ∧ (completeReading b x s).mga = s.mga ∧ (completeReading b x s).tbs = s.tbs ∧ (completeReading b x s).rev = s.rev ∧ (completeReading b x s).ste = s.ste ∧ (completeReading b x s).mdc = s.mdc ∧ (completeReading b x s).evu = s.evu ∧ (completeReading b x s).axu = s.axu := by
  simp [completeReading]

@[simp] theorem completeRequested_frame (b : Bank) (s : State) :
    (completeRequested b s).pending = s.pending ∧ (completeRequested b s).now = s.now ∧ (completeRequested b s).inReset = s.inReset ∧ (completeRequested b s).choices = s.choices ∧ (completeRequested b s).lnk = s.lnk ∧ (completeRequested b s).fwq = s.fwq ∧ (completeRequested b s).rtq = s.rtq ∧ (completeRequested b s).mga = s.mga ∧ (completeRequested b s).tbs = s.tbs ∧ (completeRequested b s).rev = s.rev ∧ (completeRequested b s).ste = s.ste ∧ (completeRequested b s).mdc = s.mdc ∧ (completeRequested b s).evu = s.evu ∧ (completeRequested b s).axu = s.axu := by
  simp [completeRequested]

@[simp] theorem endSequence_frame (s : State) :
    (endSequence s).pending = s.pending ∧ (endSequence s).now = s.now ∧ (endSequence s).inReset = s.inReset ∧ (endSequence s).choices = s.choices ∧ (endSequence s).lnk = s.lnk ∧ (endSequence s).fwq = s.fwq ∧ (endSequence s).rtq = s.rtq ∧ (endSequence s).mga = s.mga ∧ (endSequence s).tbs = s.tbs ∧ (endSequence s).rev = s.rev ∧ (endSequence s).ste = s.ste ∧ (endSequence s).csd = s.csd ∧ (endSequence s).mdc = s.mdc ∧ (endSequence s).evu = s.evu ∧ (endSequence s).axu = s.axu := by
  simp [endSequence]


end Sys2Proof.Machine
end

