-- ==== Sys2Proof/Laws/Engine.lean ====
section
/-! SUPPORT. Which blocks the operations of the Step Engine leave alone: one frame lemma for each operation, true for every state. -/

namespace Sys2Proof.Machine

@[simp] theorem enterIdle_frame (s : State) :
    (enterIdle s).pending = s.pending ∧ (enterIdle s).now = s.now ∧ (enterIdle s).inReset = s.inReset ∧ (enterIdle s).choices = s.choices ∧ (enterIdle s).lnk = s.lnk ∧ (enterIdle s).fwq = s.fwq ∧ (enterIdle s).rtq = s.rtq ∧ (enterIdle s).mga = s.mga ∧ (enterIdle s).tbs = s.tbs ∧ (enterIdle s).rev = s.rev ∧ (enterIdle s).csd = s.csd ∧ (enterIdle s).mdc = s.mdc ∧ (enterIdle s).evu = s.evu ∧ (enterIdle s).axu = s.axu := by
  unfold enterIdle; dsimp only; split <;> simp

theorem offerReport_frame (s : State) {t : State} (h : offerReport s = some t) :
    t.pending = s.pending ∧ t.now = s.now ∧ t.inReset = s.inReset ∧ t.choices = s.choices ∧ t.lnk = s.lnk ∧ t.fwq = s.fwq ∧ t.mga = s.mga ∧ t.tbs = s.tbs ∧ t.rev = s.rev ∧ t.csd = s.csd ∧ t.mdc = s.mdc ∧ t.evu = s.evu ∧ t.axu = s.axu := by
  unfold offerReport at h
  split at h <;> simp at h
  simp [← h]

@[simp] theorem buildReport_frame (x : List RouteEntry) (s : State) :
    (buildReport x s).pending = s.pending ∧ (buildReport x s).now = s.now ∧ (buildReport x s).inReset = s.inReset ∧ (buildReport x s).choices = s.choices ∧ (buildReport x s).lnk = s.lnk ∧ (buildReport x s).fwq = s.fwq ∧ (buildReport x s).mga = s.mga ∧ (buildReport x s).tbs = s.tbs ∧ (buildReport x s).rev = s.rev ∧ (buildReport x s).csd = s.csd ∧ (buildReport x s).mdc = s.mdc ∧ (buildReport x s).evu = s.evu ∧ (buildReport x s).axu = s.axu := by
  refine ⟨?_, ?_, ?_, ?_, ?_, ?_, ?_, ?_, ?_, ?_, ?_, ?_, ?_⟩ <;>
  (unfold buildReport <;> (try dsimp only) <;> split <;> first | rfl | (simp only [Option.getD] <;> split <;> first | rfl | (rename_i hd; simp [offerReport_frame _ hd]; done)))

@[simp] theorem requestRoutes_frame (s : State) :
    (requestRoutes s).pending = s.pending ∧ (requestRoutes s).now = s.now ∧ (requestRoutes s).inReset = s.inReset ∧ (requestRoutes s).choices = s.choices ∧ (requestRoutes s).lnk = s.lnk ∧ (requestRoutes s).fwq = s.fwq ∧ (requestRoutes s).mga = s.mga ∧ (requestRoutes s).tbs = s.tbs ∧ (requestRoutes s).csd = s.csd ∧ (requestRoutes s).mdc = s.mdc ∧ (requestRoutes s).evu = s.evu ∧ (requestRoutes s).axu = s.axu := by
  unfold requestRoutes
  repeat' split
  all_goals simp

@[simp] theorem recordEnd_frame (o : StepOutcome) (s : State) :
    (recordEnd o s).pending = s.pending ∧ (recordEnd o s).now = s.now ∧ (recordEnd o s).inReset = s.inReset ∧ (recordEnd o s).choices = s.choices ∧ (recordEnd o s).lnk = s.lnk ∧ (recordEnd o s).fwq = s.fwq ∧ (recordEnd o s).rtq = s.rtq ∧ (recordEnd o s).mga = s.mga ∧ (recordEnd o s).tbs = s.tbs ∧ (recordEnd o s).csd = s.csd ∧ (recordEnd o s).vfu = s.vfu ∧ (recordEnd o s).mdc = s.mdc ∧ (recordEnd o s).evu = s.evu ∧ (recordEnd o s).axu = s.axu := by
  simp [recordEnd]

@[simp] theorem finishStep_frame (o : StepOutcome) (s : State) :
    (finishStep o s).pending = s.pending ∧ (finishStep o s).now = s.now ∧ (finishStep o s).inReset = s.inReset ∧ (finishStep o s).choices = s.choices ∧ (finishStep o s).lnk = s.lnk ∧ (finishStep o s).fwq = s.fwq ∧ (finishStep o s).mga = s.mga ∧ (finishStep o s).tbs = s.tbs ∧ (finishStep o s).csd = s.csd ∧ (finishStep o s).mdc = s.mdc ∧ (finishStep o s).evu = s.evu ∧ (finishStep o s).axu = s.axu := by
  unfold finishStep
  repeat' split
  all_goals simp

@[simp] theorem endStep_frame (o : StepOutcome) (s : State) :
    (endStep o s).pending = s.pending ∧ (endStep o s).now = s.now ∧ (endStep o s).inReset = s.inReset ∧ (endStep o s).choices = s.choices ∧ (endStep o s).mga = s.mga ∧ (endStep o s).tbs = s.tbs ∧ (endStep o s).csd = s.csd ∧ (endStep o s).axu = s.axu := by
  unfold endStep
  repeat' split
  all_goals simp

@[simp] theorem takeRecord_frame (x : FwdEntry) (p : PathRec) (s : State) :
    (takeRecord x p s).pending = s.pending ∧ (takeRecord x p s).now = s.now ∧ (takeRecord x p s).inReset = s.inReset ∧ (takeRecord x p s).choices = s.choices ∧ (takeRecord x p s).lnk = s.lnk ∧ (takeRecord x p s).rtq = s.rtq ∧ (takeRecord x p s).mga = s.mga ∧ (takeRecord x p s).tbs = s.tbs ∧ (takeRecord x p s).csd = s.csd ∧ (takeRecord x p s).mdc = s.mdc ∧ (takeRecord x p s).evu = s.evu ∧ (takeRecord x p s).axu = s.axu := by
  simp [takeRecord]

@[simp] theorem takeNoPath_frame (x : FwdEntry) (s : State) :
    (takeNoPath x s).pending = s.pending ∧ (takeNoPath x s).now = s.now ∧ (takeNoPath x s).inReset = s.inReset ∧ (takeNoPath x s).choices = s.choices ∧ (takeNoPath x s).mga = s.mga ∧ (takeNoPath x s).tbs = s.tbs ∧ (takeNoPath x s).csd = s.csd ∧ (takeNoPath x s).mdc = s.mdc ∧ (takeNoPath x s).evu = s.evu ∧ (takeNoPath x s).axu = s.axu := by
  simp [takeNoPath]

@[simp] theorem take_frame (x : FwdEntry) (s : State) :
    (take x s).pending = s.pending ∧ (take x s).now = s.now ∧ (take x s).inReset = s.inReset ∧ (take x s).choices = s.choices ∧ (take x s).mga = s.mga ∧ (take x s).tbs = s.tbs ∧ (take x s).csd = s.csd ∧ (take x s).mdc = s.mdc ∧ (take x s).evu = s.evu ∧ (take x s).axu = s.axu := by
  unfold take; split <;> simp

@[simp] theorem preemptAndTake_frame (x : FwdEntry) (s : State) :
    (preemptAndTake x s).pending = s.pending ∧ (preemptAndTake x s).now = s.now ∧ (preemptAndTake x s).inReset = s.inReset ∧ (preemptAndTake x s).choices = s.choices ∧ (preemptAndTake x s).mga = s.mga ∧ (preemptAndTake x s).tbs = s.tbs ∧ (preemptAndTake x s).axu = s.axu := by
  unfold preemptAndTake; split <;> simp

theorem offerStep_frame (x : FwdEntry) (s : State) {t : State} (h : offerStep x s = some t) :
    t.pending = s.pending ∧ t.now = s.now ∧ t.inReset = s.inReset ∧ t.choices = s.choices ∧ t.mga = s.mga ∧ t.tbs = s.tbs ∧ t.axu = s.axu := by
  unfold offerStep at h
  repeat' split at h
  all_goals cases h
  all_goals simp

@[simp] theorem enterSettling_frame (s : State) :
    (enterSettling s).pending = s.pending ∧ (enterSettling s).now = s.now ∧ (enterSettling s).inReset = s.inReset ∧ (enterSettling s).choices = s.choices ∧ (enterSettling s).mga = s.mga ∧ (enterSettling s).tbs = s.tbs ∧ (enterSettling s).csd = s.csd ∧ (enterSettling s).axu = s.axu := by
  unfold enterSettling
  dsimp only
  repeat' split
  all_goals simp

@[simp] theorem enterActuating_frame (s : State) :
    (enterActuating s).pending = s.pending ∧ (enterActuating s).now = s.now ∧ (enterActuating s).inReset = s.inReset ∧ (enterActuating s).choices = s.choices ∧ (enterActuating s).lnk = s.lnk ∧ (enterActuating s).fwq = s.fwq ∧ (enterActuating s).rtq = s.rtq ∧ (enterActuating s).mga = s.mga ∧ (enterActuating s).tbs = s.tbs ∧ (enterActuating s).rev = s.rev ∧ (enterActuating s).vfu = s.vfu ∧ (enterActuating s).mdc = s.mdc ∧ (enterActuating s).evu = s.evu ∧ (enterActuating s).axu = s.axu := by
  unfold enterActuating; dsimp only; split <;> simp

@[simp] theorem enterMuting_frame (s : State) :
    (enterMuting s).pending = s.pending ∧ (enterMuting s).now = s.now ∧ (enterMuting s).inReset = s.inReset ∧ (enterMuting s).choices = s.choices ∧ (enterMuting s).mga = s.mga ∧ (enterMuting s).tbs = s.tbs ∧ (enterMuting s).axu = s.axu := by
  unfold enterMuting
  dsimp only
  repeat' split
  all_goals simp

@[simp] theorem releaseUnlessHold_frame (s : State) :
    (releaseUnlessHold s).pending = s.pending ∧ (releaseUnlessHold s).now = s.now ∧ (releaseUnlessHold s).inReset = s.inReset ∧ (releaseUnlessHold s).choices = s.choices ∧ (releaseUnlessHold s).mga = s.mga ∧ (releaseUnlessHold s).tbs = s.tbs ∧ (releaseUnlessHold s).rev = s.rev ∧ (releaseUnlessHold s).ste = s.ste ∧ (releaseUnlessHold s).csd = s.csd ∧ (releaseUnlessHold s).vfu = s.vfu ∧ (releaseUnlessHold s).mdc = s.mdc ∧ (releaseUnlessHold s).evu = s.evu ∧ (releaseUnlessHold s).axu = s.axu := by
  unfold releaseUnlessHold
  repeat' split
  all_goals simp

@[simp] theorem takeVerdict_frame (v : Verdict) (s : State) :
    (takeVerdict v s).pending = s.pending ∧ (takeVerdict v s).now = s.now ∧ (takeVerdict v s).inReset = s.inReset ∧ (takeVerdict v s).choices = s.choices ∧ (takeVerdict v s).mga = s.mga ∧ (takeVerdict v s).tbs = s.tbs ∧ (takeVerdict v s).axu = s.axu := by
  unfold takeVerdict
  dsimp only
  repeat' split
  all_goals simp

@[simp] theorem landForEngine_frame (e : Elem) (d : Drive) (s : State) :
    (landForEngine e d s).pending = s.pending ∧ (landForEngine e d s).now = s.now ∧ (landForEngine e d s).inReset = s.inReset ∧ (landForEngine e d s).choices = s.choices ∧ (landForEngine e d s).mga = s.mga ∧ (landForEngine e d s).tbs = s.tbs ∧ (landForEngine e d s).csd = s.csd ∧ (landForEngine e d s).axu = s.axu := by
  unfold landForEngine
  dsimp only
  repeat' split
  all_goals simp

@[simp] theorem supplyLowForEngine_frame (s : State) :
    (supplyLowForEngine s).pending = s.pending ∧ (supplyLowForEngine s).now = s.now ∧ (supplyLowForEngine s).inReset = s.inReset ∧ (supplyLowForEngine s).choices = s.choices ∧ (supplyLowForEngine s).mga = s.mga ∧ (supplyLowForEngine s).tbs = s.tbs ∧ (supplyLowForEngine s).csd = s.csd ∧ (supplyLowForEngine s).axu = s.axu := by
  unfold supplyLowForEngine; split <;> simp

@[simp] theorem rfGoneForEngine_frame (s : State) :
    (rfGoneForEngine s).pending = s.pending ∧ (rfGoneForEngine s).now = s.now ∧ (rfGoneForEngine s).inReset = s.inReset ∧ (rfGoneForEngine s).choices = s.choices ∧ (rfGoneForEngine s).lnk = s.lnk ∧ (rfGoneForEngine s).fwq = s.fwq ∧ (rfGoneForEngine s).rtq = s.rtq ∧ (rfGoneForEngine s).mga = s.mga ∧ (rfGoneForEngine s).tbs = s.tbs ∧ (rfGoneForEngine s).rev = s.rev ∧ (rfGoneForEngine s).vfu = s.vfu ∧ (rfGoneForEngine s).mdc = s.mdc ∧ (rfGoneForEngine s).evu = s.evu ∧ (rfGoneForEngine s).axu = s.axu := by
  unfold rfGoneForEngine; split <;> simp

@[simp] theorem abandonForSafe_frame (s : State) :
    (abandonForSafe s).pending = s.pending ∧ (abandonForSafe s).now = s.now ∧ (abandonForSafe s).inReset = s.inReset ∧ (abandonForSafe s).choices = s.choices ∧ (abandonForSafe s).mga = s.mga ∧ (abandonForSafe s).tbs = s.tbs ∧ (abandonForSafe s).csd = s.csd ∧ (abandonForSafe s).axu = s.axu := by
  unfold abandonForSafe; split <;> simp

@[simp] theorem resetEngine_frame (s : State) :
    (resetEngine s).pending = s.pending ∧ (resetEngine s).now = s.now ∧ (resetEngine s).inReset = s.inReset ∧ (resetEngine s).choices = s.choices ∧ (resetEngine s).lnk = s.lnk ∧ (resetEngine s).fwq = s.fwq ∧ (resetEngine s).rtq = s.rtq ∧ (resetEngine s).mga = s.mga ∧ (resetEngine s).tbs = s.tbs ∧ (resetEngine s).csd = s.csd ∧ (resetEngine s).vfu = s.vfu ∧ (resetEngine s).mdc = s.mdc ∧ (resetEngine s).evu = s.evu ∧ (resetEngine s).axu = s.axu := by
  simp [resetEngine]


end Sys2Proof.Machine
end

