-- ==== Sys2Proof/Laws/Mode.lean ====
section
/-! SUPPORT. Which blocks the operations of the Management Agent and the Mode Controller leave alone: one frame lemma for each operation, true for every state. -/

namespace Sys2Proof.Machine

@[simp] theorem placeAnswer_frame (f : Frame) (s : State) :
    (placeAnswer f s).pending = s.pending ∧ (placeAnswer f s).now = s.now ∧ (placeAnswer f s).inReset = s.inReset ∧ (placeAnswer f s).choices = s.choices ∧ (placeAnswer f s).lnk = s.lnk ∧ (placeAnswer f s).fwq = s.fwq ∧ (placeAnswer f s).tbs = s.tbs ∧ (placeAnswer f s).rev = s.rev ∧ (placeAnswer f s).ste = s.ste ∧ (placeAnswer f s).csd = s.csd ∧ (placeAnswer f s).vfu = s.vfu ∧ (placeAnswer f s).mdc = s.mdc ∧ (placeAnswer f s).evu = s.evu ∧ (placeAnswer f s).axu = s.axu := by
  unfold placeAnswer; split <;> simp

@[simp] theorem answer_frame (x : Result) (s : State) :
    (answer x s).pending = s.pending ∧ (answer x s).now = s.now ∧ (answer x s).inReset = s.inReset ∧ (answer x s).choices = s.choices ∧ (answer x s).lnk = s.lnk ∧ (answer x s).fwq = s.fwq ∧ (answer x s).tbs = s.tbs ∧ (answer x s).rev = s.rev ∧ (answer x s).ste = s.ste ∧ (answer x s).csd = s.csd ∧ (answer x s).vfu = s.vfu ∧ (answer x s).mdc = s.mdc ∧ (answer x s).evu = s.evu ∧ (answer x s).axu = s.axu := by
  unfold answer; split <;> simp

theorem offerAnswer_frame (s : State) {t : State} (h : offerAnswer s = some t) :
    t.pending = s.pending ∧ t.now = s.now ∧ t.inReset = s.inReset ∧ t.choices = s.choices ∧ t.lnk = s.lnk ∧ t.fwq = s.fwq ∧ t.tbs = s.tbs ∧ t.rev = s.rev ∧ t.ste = s.ste ∧ t.csd = s.csd ∧ t.vfu = s.vfu ∧ t.mdc = s.mdc ∧ t.evu = s.evu ∧ t.axu = s.axu := by
  unfold offerAnswer at h
  split at h <;> simp at h
  simp [← h]

@[simp] theorem answerReset_frame (s : State) :
    (answerReset s).pending = s.pending ∧ (answerReset s).now = s.now ∧ (answerReset s).inReset = s.inReset ∧ (answerReset s).choices = s.choices ∧ (answerReset s).lnk = s.lnk ∧ (answerReset s).fwq = s.fwq ∧ (answerReset s).tbs = s.tbs ∧ (answerReset s).rev = s.rev ∧ (answerReset s).ste = s.ste ∧ (answerReset s).csd = s.csd ∧ (answerReset s).vfu = s.vfu ∧ (answerReset s).mdc = s.mdc ∧ (answerReset s).evu = s.evu ∧ (answerReset s).axu = s.axu := by
  unfold answerReset
  dsimp only
  repeat' split
  all_goals simp

theorem endHold_frame (s : State) {t : State} (h : endHold s = some t) :
    t.pending = s.pending ∧ t.now = s.now ∧ t.inReset = s.inReset ∧ t.choices = s.choices ∧ t.lnk = s.lnk ∧ t.fwq = s.fwq ∧ t.tbs = s.tbs ∧ t.rev = s.rev ∧ t.ste = s.ste ∧ t.csd = s.csd ∧ t.vfu = s.vfu ∧ t.mdc = s.mdc ∧ t.evu = s.evu ∧ t.axu = s.axu := by
  unfold endHold at h
  split at h <;> simp at h
  simp [← h]

@[simp] theorem landSafe_frame (e : Elem) (s : State) :
    (landSafe e s).pending = s.pending ∧ (landSafe e s).now = s.now ∧ (landSafe e s).inReset = s.inReset ∧ (landSafe e s).choices = s.choices ∧ (landSafe e s).lnk = s.lnk ∧ (landSafe e s).fwq = s.fwq ∧ (landSafe e s).rtq = s.rtq ∧ (landSafe e s).mga = s.mga ∧ (landSafe e s).tbs = s.tbs ∧ (landSafe e s).rev = s.rev ∧ (landSafe e s).ste = s.ste ∧ (landSafe e s).csd = s.csd ∧ (landSafe e s).vfu = s.vfu ∧ (landSafe e s).evu = s.evu ∧ (landSafe e s).axu = s.axu := by
  simp [landSafe]

@[simp] theorem verifyAtSafe_frame (b : Bool) (s : State) :
    (verifyAtSafe b s).pending = s.pending ∧ (verifyAtSafe b s).now = s.now ∧ (verifyAtSafe b s).inReset = s.inReset ∧ (verifyAtSafe b s).choices = s.choices ∧ (verifyAtSafe b s).lnk = s.lnk ∧ (verifyAtSafe b s).fwq = s.fwq ∧ (verifyAtSafe b s).rtq = s.rtq ∧ (verifyAtSafe b s).mga = s.mga ∧ (verifyAtSafe b s).tbs = s.tbs ∧ (verifyAtSafe b s).rev = s.rev ∧ (verifyAtSafe b s).ste = s.ste ∧ (verifyAtSafe b s).mdc = s.mdc ∧ (verifyAtSafe b s).evu = s.evu ∧ (verifyAtSafe b s).axu = s.axu := by
  unfold verifyAtSafe
  dsimp only
  repeat' split
  all_goals simp

@[simp] theorem enterEntry_frame (o : EntryOrigin) (r : EntryRequest) (s : State) :
    (enterEntry o r s).pending = s.pending ∧ (enterEntry o r s).now = s.now ∧ (enterEntry o r s).inReset = s.inReset ∧ (enterEntry o r s).choices = s.choices ∧ (enterEntry o r s).lnk = s.lnk ∧ (enterEntry o r s).fwq = s.fwq ∧ (enterEntry o r s).mga = s.mga ∧ (enterEntry o r s).tbs = s.tbs ∧ (enterEntry o r s).rev = s.rev ∧ (enterEntry o r s).ste = s.ste ∧ (enterEntry o r s).evu = s.evu ∧ (enterEntry o r s).axu = s.axu := by
  simp [enterEntry]

@[simp] theorem enterRunMode_frame (s : State) :
    (enterRunMode s).pending = s.pending ∧ (enterRunMode s).now = s.now ∧ (enterRunMode s).inReset = s.inReset ∧ (enterRunMode s).choices = s.choices ∧ (enterRunMode s).lnk = s.lnk ∧ (enterRunMode s).fwq = s.fwq ∧ (enterRunMode s).tbs = s.tbs ∧ (enterRunMode s).rev = s.rev ∧ (enterRunMode s).csd = s.csd ∧ (enterRunMode s).evu = s.evu ∧ (enterRunMode s).axu = s.axu := by
  unfold enterRunMode; dsimp only; split <;> simp

@[simp] theorem returnToConfig_frame (s : State) :
    (returnToConfig s).pending = s.pending ∧ (returnToConfig s).now = s.now ∧ (returnToConfig s).inReset = s.inReset ∧ (returnToConfig s).choices = s.choices ∧ (returnToConfig s).lnk = s.lnk ∧ (returnToConfig s).fwq = s.fwq ∧ (returnToConfig s).mga = s.mga ∧ (returnToConfig s).tbs = s.tbs ∧ (returnToConfig s).rev = s.rev ∧ (returnToConfig s).ste = s.ste ∧ (returnToConfig s).evu = s.evu ∧ (returnToConfig s).axu = s.axu := by
  simp [returnToConfig]

@[simp] theorem endRecovery_frame (s : State) :
    (endRecovery s).pending = s.pending ∧ (endRecovery s).now = s.now ∧ (endRecovery s).inReset = s.inReset ∧ (endRecovery s).choices = s.choices ∧ (endRecovery s).lnk = s.lnk ∧ (endRecovery s).fwq = s.fwq ∧ (endRecovery s).rtq = s.rtq ∧ (endRecovery s).mga = s.mga ∧ (endRecovery s).tbs = s.tbs ∧ (endRecovery s).rev = s.rev ∧ (endRecovery s).ste = s.ste ∧ (endRecovery s).vfu = s.vfu ∧ (endRecovery s).mdc = s.mdc ∧ (endRecovery s).evu = s.evu ∧ (endRecovery s).axu = s.axu := by
  unfold endRecovery; split <;> simp

@[simp] theorem enterConfigMode_frame (s : State) :
    (enterConfigMode s).pending = s.pending ∧ (enterConfigMode s).now = s.now ∧ (enterConfigMode s).inReset = s.inReset ∧ (enterConfigMode s).choices = s.choices ∧ (enterConfigMode s).lnk = s.lnk ∧ (enterConfigMode s).fwq = s.fwq ∧ (enterConfigMode s).mga = s.mga ∧ (enterConfigMode s).tbs = s.tbs ∧ (enterConfigMode s).rev = s.rev ∧ (enterConfigMode s).ste = s.ste ∧ (enterConfigMode s).evu = s.evu ∧ (enterConfigMode s).axu = s.axu := by
  unfold enterConfigMode; dsimp only; split <;> simp

@[simp] theorem resetMode_frame (s : State) :
    (resetMode s).pending = s.pending ∧ (resetMode s).now = s.now ∧ (resetMode s).inReset = s.inReset ∧ (resetMode s).choices = s.choices ∧ (resetMode s).lnk = s.lnk ∧ (resetMode s).fwq = s.fwq ∧ (resetMode s).mga = s.mga ∧ (resetMode s).tbs = s.tbs ∧ (resetMode s).rev = s.rev ∧ (resetMode s).ste = s.ste ∧ (resetMode s).csd = s.csd ∧ (resetMode s).vfu = s.vfu ∧ (resetMode s).evu = s.evu ∧ (resetMode s).axu = s.axu := by
  simp [resetMode]

@[simp] theorem formSafeDrive_frame (s : State) :
    (formSafeDrive s).pending = s.pending ∧ (formSafeDrive s).now = s.now ∧ (formSafeDrive s).inReset = s.inReset ∧
      (formSafeDrive s).choices = s.choices ∧ (formSafeDrive s).lnk = s.lnk ∧ (formSafeDrive s).fwq = s.fwq ∧
      (formSafeDrive s).rtq = s.rtq ∧ (formSafeDrive s).mga = s.mga ∧ (formSafeDrive s).tbs = s.tbs ∧
      (formSafeDrive s).rev = s.rev ∧ (formSafeDrive s).ste = s.ste ∧ (formSafeDrive s).vfu = s.vfu ∧
      (formSafeDrive s).evu = s.evu ∧ (formSafeDrive s).axu = s.axu := by
  unfold formSafeDrive
  refine ⟨?_, ?_, ?_, ?_, ?_, ?_, ?_, ?_, ?_, ?_, ?_, ?_, ?_, ?_⟩ <;> (try dsimp only) <;> (repeat' split) <;> (try simp only [handIn_frame])

@[simp] theorem redriveSafe_frame (s : State) :
    (redriveSafe s).pending = s.pending ∧ (redriveSafe s).now = s.now ∧ (redriveSafe s).inReset = s.inReset ∧
      (redriveSafe s).choices = s.choices ∧ (redriveSafe s).lnk = s.lnk ∧ (redriveSafe s).fwq = s.fwq ∧
      (redriveSafe s).mga = s.mga ∧ (redriveSafe s).tbs = s.tbs ∧ (redriveSafe s).rev = s.rev ∧
      (redriveSafe s).ste = s.ste ∧ (redriveSafe s).vfu = s.vfu ∧ (redriveSafe s).evu = s.evu ∧
      (redriveSafe s).axu = s.axu := by
  unfold redriveSafe
  refine ⟨?_, ?_, ?_, ?_, ?_, ?_, ?_, ?_, ?_, ?_, ?_, ?_, ?_⟩ <;> (try dsimp only) <;> (repeat' split) <;> (try simp only [setMode_frame, formSafeDrive_frame])

@[simp] theorem mismatchInSafe_frame (x : SafeSub) (s : State) :
    (mismatchInSafe x s).pending = s.pending ∧ (mismatchInSafe x s).now = s.now ∧
      (mismatchInSafe x s).inReset = s.inReset ∧ (mismatchInSafe x s).choices = s.choices ∧
      (mismatchInSafe x s).lnk = s.lnk ∧ (mismatchInSafe x s).fwq = s.fwq ∧ (mismatchInSafe x s).mga = s.mga ∧
      (mismatchInSafe x s).tbs = s.tbs ∧ (mismatchInSafe x s).rev = s.rev ∧ (mismatchInSafe x s).ste = s.ste ∧
      (mismatchInSafe x s).vfu = s.vfu ∧ (mismatchInSafe x s).evu = s.evu ∧ (mismatchInSafe x s).axu = s.axu := by
  unfold mismatchInSafe
  refine ⟨?_, ?_, ?_, ?_, ?_, ?_, ?_, ?_, ?_, ?_, ?_, ?_, ?_⟩ <;> (try dsimp only) <;> (repeat' split) <;> (try simp only [redriveSafe_frame])

@[simp] theorem enterSafeMode_frame (s : State) :
    (enterSafeMode s).pending = s.pending ∧ (enterSafeMode s).now = s.now ∧ (enterSafeMode s).inReset = s.inReset ∧
      (enterSafeMode s).choices = s.choices ∧ (enterSafeMode s).mga = s.mga ∧ (enterSafeMode s).tbs = s.tbs ∧
      (enterSafeMode s).axu = s.axu := by
  unfold enterSafeMode
  refine ⟨?_, ?_, ?_, ?_, ?_, ?_, ?_⟩ <;> (try dsimp only) <;> (repeat' split) <;> (try simp only [formSafeDrive_frame, signal_frame, verifyAtSafe_frame, discardLatch_frame, cancelPending_frame, abandonForSafe_frame, setMode_frame])

@[simp] theorem failEntry_frame (o : EntryOrigin) (s : State) :
    (failEntry o s).pending = s.pending ∧ (failEntry o s).now = s.now ∧ (failEntry o s).inReset = s.inReset ∧
      (failEntry o s).choices = s.choices ∧ (failEntry o s).tbs = s.tbs ∧ (failEntry o s).axu = s.axu := by
  unfold failEntry
  refine ⟨?_, ?_, ?_, ?_, ?_, ?_⟩ <;> (try dsimp only) <;> (repeat' split) <;> (try simp only [enterSafeMode_frame, returnToConfig_frame, answer_frame, withdrawSequence_frame])

@[simp] theorem tripEntry_frame (s : State) :
    (tripEntry s).pending = s.pending ∧ (tripEntry s).now = s.now ∧ (tripEntry s).inReset = s.inReset ∧
      (tripEntry s).choices = s.choices ∧ (tripEntry s).tbs = s.tbs ∧ (tripEntry s).axu = s.axu := by
  unfold tripEntry
  refine ⟨?_, ?_, ?_, ?_, ?_, ?_⟩ <;> (try dsimp only) <;> (repeat' split) <;> (try simp only [enterSafeMode_frame, answer_frame, withdrawSequence_frame])

@[simp] theorem takeMismatch_frame (s : State) :
    (takeMismatch s).pending = s.pending ∧ (takeMismatch s).now = s.now ∧ (takeMismatch s).inReset = s.inReset ∧
      (takeMismatch s).choices = s.choices ∧ (takeMismatch s).tbs = s.tbs ∧ (takeMismatch s).axu = s.axu := by
  unfold takeMismatch
  refine ⟨?_, ?_, ?_, ?_, ?_, ?_⟩ <;> (try dsimp only) <;> (repeat' split) <;> (try simp only [failEntry_frame, mismatchInSafe_frame])

@[simp] theorem tripBy_frame (c : TripCause) (s : State) :
    (tripBy c s).pending = s.pending ∧ (tripBy c s).now = s.now ∧ (tripBy c s).inReset = s.inReset ∧
      (tripBy c s).choices = s.choices ∧ (tripBy c s).tbs = s.tbs ∧ (tripBy c s).axu = s.axu := by
  unfold tripBy
  refine ⟨?_, ?_, ?_, ?_, ?_, ?_⟩ <;> (try dsimp only) <;> (repeat' split) <;> (try simp only [failEntry_frame, tripEntry_frame, enterSafeMode_frame])

@[simp] theorem takeTrip_frame (s : State) :
    (takeTrip s).pending = s.pending ∧ (takeTrip s).now = s.now ∧ (takeTrip s).inReset = s.inReset ∧
      (takeTrip s).choices = s.choices ∧ (takeTrip s).tbs = s.tbs ∧ (takeTrip s).axu = s.axu := by
  unfold takeTrip
  refine ⟨?_, ?_, ?_, ?_, ?_, ?_⟩ <;> (try dsimp only) <;> (repeat' split) <;> (try simp only [tripBy_frame])

@[simp] theorem returnSupply_frame (s : State) :
    (returnSupply s).pending = s.pending ∧ (returnSupply s).now = s.now ∧ (returnSupply s).inReset = s.inReset ∧
      (returnSupply s).choices = s.choices ∧ (returnSupply s).lnk = s.lnk ∧ (returnSupply s).fwq = s.fwq ∧
      (returnSupply s).mga = s.mga ∧ (returnSupply s).tbs = s.tbs ∧ (returnSupply s).rev = s.rev ∧
      (returnSupply s).ste = s.ste ∧ (returnSupply s).vfu = s.vfu ∧ (returnSupply s).evu = s.evu ∧
      (returnSupply s).axu = s.axu := by
  unfold returnSupply
  refine ⟨?_, ?_, ?_, ?_, ?_, ?_, ?_, ?_, ?_, ?_, ?_, ?_, ?_⟩ <;> (try dsimp only) <;> (repeat' split) <;> (try simp only [formRecovery_frame, redriveSafe_frame, discardLatch_frame])

end Sys2Proof.Machine
end

