-- ==== Sys2Proof/Laws/PerInstr.lean ====
section
/-! SUPPORT. The per-instruction family `Framed`: what a well-formed management command carries fits a frame of chapter 12. One
lemma for each command. -/

namespace Sys2Proof.Laws.Framed

open Sys2Proof.Machine

/-- The request of a well-formed command has node addresses, an operation code and a payload that a frame can carry (R131,
R152). -/
def Statement (i : Instr) : Prop :=
  i.wellFormed = true → ∀ h p, requestOf i = some (h, p) →
    h.dest.toNat ≤ 63 ∧ h.src.toNat ≤ 63 ∧ isKnownOp (byteAt p 0) = true ∧ p.length ≤ Config.maxPayload

theorem beBytes_length (k n : Nat) : (beBytes k n).length = k := by
  induction k generalizing n with
  | zero => rfl
  | succ k ih => simp [beBytes, ih]

theorem powerOn (time : Nat) (pins : Pins) : Statement (.powerOn time pins) := by
  intro _ h p e
  cases e

theorem resetN (time : Nat) : Statement (.resetN time) := by
  intro _ h p e
  cases e

theorem resetNRelease (time : Nat) (pins : Pins) : Statement (.resetNRelease time pins) := by
  intro _ h p e
  cases e

theorem levelConditionsRead (time : Nat) : Statement (.levelConditionsRead time) := by
  intro _ h p e
  cases e

theorem linkUp (time : Nat) (port : Port) : Statement (.linkUp time port) := by
  intro _ h p e
  cases e

theorem linkDown (time : Nat) (port : Port) : Statement (.linkDown time port) := by
  intro _ h p e
  cases e

theorem frameReceived (time : Nat) (port : Port) (bytes : List Byte) : Statement (.frameReceived time port bytes) := by
  intro _ h p e
  cases e

theorem flowMarkReceived (time : Nat) (port : Port) (mark : Mark) : Statement (.flowMarkReceived time port mark) := by
  intro _ h p e
  cases e

theorem transmissionEnd (time : Nat) (port : Port) : Statement (.transmissionEnd time port) := by
  intro _ h p e
  cases e

theorem spanVerdict (time : Nat) : Statement (.spanVerdict time) := by
  intro _ h p e
  cases e

theorem graceTimerExpiry : Statement (.graceTimerExpiry) := by
  intro _ h p e
  cases e

theorem dwellTimerExpiry : Statement (.dwellTimerExpiry) := by
  intro _ h p e
  cases e

theorem routeRequestComplete (time : Nat) : Statement (.routeRequestComplete time) := by
  intro _ h p e
  cases e

theorem pulseEnd (e : Elem) : Statement (.pulseEnd e) := by
  intro _ h p e
  cases e

theorem pulseLand (e : Elem) : Statement (.pulseLand e) := by
  intro _ h p e
  cases e

theorem bankRecoveryReached (b : Bank) : Statement (.bankRecoveryReached b) := by
  intro _ h p e
  cases e

theorem lockoutElapsed (e : Elem) : Statement (.lockoutElapsed e) := by
  intro _ h p e
  cases e

theorem vcoilLow (time : Nat) : Statement (.vcoilLow time) := by
  intro _ h p e
  cases e

theorem supplyReturn (time : Nat) : Statement (.supplyReturn time) := by
  intro _ h p e
  cases e

theorem verifyComplete (contacts : List (BitVec 7)) : Statement (.verifyComplete contacts) := by
  intro _ h p e
  cases e

theorem slotTimerExpiry : Statement (.slotTimerExpiry) := by
  intro _ h p e
  cases e

theorem idleLeadExpiry : Statement (.idleLeadExpiry) := by
  intro _ h p e
  cases e

theorem load (head : ReqHead) (table : Byte) (index : BitVec 16) (record : List Byte) : Statement (.load head table index record) := by
  intro w h p e
  cases e
  simp only [Instr.wellFormed, ReqHead.ok, recordFits, Bool.and_eq_true, decide_eq_true_eq] at w
  refine ⟨w.1.1, w.1.2, rfl, ?_⟩
  simp only [List.length_append, List.length_cons, List.length_nil, beBytes_length]
  omega

theorem fetch (head : ReqHead) (table : Byte) (index : BitVec 16) : Statement (.fetch head table index) := by
  intro w h p e
  cases e
  simp only [Instr.wellFormed, ReqHead.ok, Bool.and_eq_true, decide_eq_true_eq] at w
  exact ⟨w.1, w.2, rfl, by simp [beBytes_length, Config.maxPayload]⟩

theorem enterRun (head : ReqHead) : Statement (.enterRun head) := by
  intro w h p e
  cases e
  simp only [Instr.wellFormed, ReqHead.ok, Bool.and_eq_true, decide_eq_true_eq] at w
  exact ⟨w.1, w.2, rfl, by simp [commandPayload, Config.maxPayload]⟩

theorem validationComplete (time : Nat) : Statement (.validationComplete time) := by
  intro _ h p e
  cases e

theorem resume (head : ReqHead) : Statement (.resume head) := by
  intro w h p e
  cases e
  simp only [Instr.wellFormed, ReqHead.ok, Bool.and_eq_true, decide_eq_true_eq] at w
  exact ⟨w.1, w.2, rfl, by simp [commandPayload, Config.maxPayload]⟩

theorem enterConfig (head : ReqHead) : Statement (.enterConfig head) := by
  intro w h p e
  cases e
  simp only [Instr.wellFormed, ReqHead.ok, Bool.and_eq_true, decide_eq_true_eq] at w
  exact ⟨w.1, w.2, rfl, by simp [commandPayload, Config.maxPayload]⟩

theorem enterSafe (head : ReqHead) : Statement (.enterSafe head) := by
  intro w h p e
  cases e
  simp only [Instr.wellFormed, ReqHead.ok, Bool.and_eq_true, decide_eq_true_eq] at w
  exact ⟨w.1, w.2, rfl, by simp [commandPayload, Config.maxPayload]⟩

theorem trip (time : Nat) : Statement (.trip time) := by
  intro _ h p e
  cases e

theorem verifyAll (head : ReqHead) : Statement (.verifyAll head) := by
  intro w h p e
  cases e
  simp only [Instr.wellFormed, ReqHead.ok, Bool.and_eq_true, decide_eq_true_eq] at w
  exact ⟨w.1, w.2, rfl, by simp [commandPayload, Config.maxPayload]⟩

theorem verifyBank (head : ReqHead) (bank : Byte) : Statement (.verifyBank head bank) := by
  intro w h p e
  cases e
  simp only [Instr.wellFormed, ReqHead.ok, Bool.and_eq_true, decide_eq_true_eq] at w
  exact ⟨w.1, w.2, rfl, by simp [commandPayload, Config.maxPayload]⟩

theorem readClearEvents (head : ReqHead) (mask : BitVec 16) : Statement (.readClearEvents head mask) := by
  intro w h p e
  cases e
  simp only [Instr.wellFormed, ReqHead.ok, Bool.and_eq_true, decide_eq_true_eq] at w
  exact ⟨w.1, w.2, rfl, by simp [commandPayload, beBytes_length, Config.maxPayload]⟩

theorem clearCounters (head : ReqHead) : Statement (.clearCounters head) := by
  intro w h p e
  cases e
  simp only [Instr.wellFormed, ReqHead.ok, Bool.and_eq_true, decide_eq_true_eq] at w
  exact ⟨w.1, w.2, rfl, by simp [commandPayload, Config.maxPayload]⟩

theorem setMarker (head : ReqHead) (value : BitVec 32) : Statement (.setMarker head value) := by
  intro w h p e
  cases e
  simp only [Instr.wellFormed, ReqHead.ok, Bool.and_eq_true, decide_eq_true_eq] at w
  exact ⟨w.1, w.2, rfl, by simp [commandPayload, beBytes_length, Config.maxPayload]⟩

theorem softReset (head : ReqHead) : Statement (.softReset head) := by
  intro w h p e
  cases e
  simp only [Instr.wellFormed, ReqHead.ok, Bool.and_eq_true, decide_eq_true_eq] at w
  exact ⟨w.1, w.2, rfl, by simp [commandPayload, Config.maxPayload]⟩

theorem presentedSignalChange (time : Nat) (line : Fin 4) (level : Bool) : Statement (.presentedSignalChange time line level) := by
  intro _ h p e
  cases e

end Sys2Proof.Laws.Framed
end

