-- ==== Sys2Proof/Laws/Still.lean ====
section
/-! SUPPORT. Where no launch pass is due and no safe drive is on its way, the consequences of an event leave the Coil
Scheduler, the tables, the flags and the mode as they are. -/

namespace Sys2Proof.Machine

theorem Still.refl (s : State) : Still s s := ⟨⟨rfl, rfl⟩, rfl, rfl, rfl, rfl⟩

theorem Still.trans {s t u : State} (h : Still s t) (g : Still t u) : Still s u :=
  ⟨⟨g.marks.1.trans h.marks.1, g.marks.2.trans h.marks.2⟩, g.coil.trans h.coil, g.tables.trans h.tables,
    g.events.trans h.events, g.control.trans h.control⟩

theorem Still.calm {s t : State} (h : Still s t) (c : s.calm) : t.calm := by
  refine ⟨by rw [h.coil]; exact c.1, ?_⟩
  have := c.2
  unfold safeComplete at this ⊢
  rw [h.coil, h.control]
  exact this

theorem verifyAction_still {s t : State} (h : verifyAction s = some t) : Still s t := by
  obtain ⟨_, a, rfl⟩ := verifyAction_eq h
  exact ⟨⟨rfl, rfl⟩, rfl, rfl, rfl, rfl⟩

theorem departFwd_still (s : State) : Still s (departFwd s) := by
  unfold departFwd
  obtain ⟨m, w, l, _, e⟩ := compareFwd_eq { s with fwq.queue := s.fwq.queue.tail }
  rw [e]
  exact ⟨⟨rfl, rfl⟩, rfl, rfl, rfl, rfl⟩

theorem appendRet_still (f : Frame) (own : Bool) (s : State) : Still s (appendRet f own s) := by
  unfold appendRet
  obtain ⟨m, w, l, _, e⟩ := compareRet_eq { s with rtq.queue := s.rtq.queue ++ [{ frame := f, own := own }] }
  rw [e]
  exact ⟨⟨rfl, rfl⟩, rfl, rfl, rfl, rfl⟩

theorem dealAtChainEnd_still {s t : State} (h : dealAtChainEnd s = some t) : Still s t := by
  unfold dealAtChainEnd at h
  repeat' split at h
  all_goals cases h
  · refine Still.trans ?_ (departFwd_still _); exact ⟨⟨rfl, rfl⟩, rfl, rfl, rfl, rfl⟩
  · refine Still.trans ?_ (departFwd_still _); exact ⟨⟨rfl, rfl⟩, rfl, rfl, rfl, rfl⟩

theorem admissionPass_still {s t : State} (h : admissionPass s = some t) : Still s t := by
  have a : ∀ s, Still s (passAlert s) := by
    intro s; unfold passAlert
    repeat' split
    · refine Still.trans ?_ (appendRet_still _ _ _); exact ⟨⟨rfl, rfl⟩, rfl, rfl, rfl, rfl⟩
    all_goals exact .refl s
  have b : ∀ s, Still s (passResponse s) := by
    intro s; unfold passResponse
    repeat' split
    · refine Still.trans ?_ (appendRet_still _ _ _); exact ⟨⟨rfl, rfl⟩, rfl, rfl, rfl, rfl⟩
    all_goals exact .refl s
  have c : ∀ s, Still s (passEcho s) := by
    intro s; unfold passEcho
    repeat' split
    · refine Still.trans ?_ (appendRet_still _ _ _); exact ⟨⟨rfl, rfl⟩, rfl, rfl, rfl, rfl⟩
    all_goals exact .refl s
  have d : ∀ s, Still s (passReport s) := by
    intro s; unfold passReport
    repeat' split
    · refine Still.trans ?_ (appendRet_still _ _ _); exact ⟨⟨rfl, rfl⟩, rfl, rfl, rfl, rfl⟩
    all_goals exact .refl s
  unfold admissionPass at h
  split at h <;> cases h
  exact (((a s).trans (b _)).trans (c _)).trans (d _)

theorem react_still {s t : State} (q : s.frontStill) (c : s.calm) (h : react s = some t) : Still s t := by
  rcases react_cases h with h | h | h | h | h | h | h | h | h | h | h
  · unfold restartEvaluation at h
    repeat' split at h
    all_goals cases h
    exact ⟨⟨rfl, rfl⟩, rfl, rfl, rfl, rfl⟩
  · simp [makePass, c.1] at h
  · unfold chooseVerify at h
    repeat' split at h
    all_goals cases h
    · rename_i hv; exact verifyAction_still hv
    · rename_i hv _ _ _; refine Still.trans (verifyAction_still hv) ?_; exact ⟨⟨rfl, rfl⟩, rfl, rfl, rfl, rfl⟩
    · rename_i hx _ _; refine Still.trans (dealAtChainEnd_still (examineHead_still q hx)) ?_; exact ⟨⟨rfl, rfl⟩, rfl, rfl, rfl, rfl⟩
    · exact verifyAction_still ‹_›
  · simp [completeSafe, c.2] at h
  · unfold endHold at h
    split at h <;> cases h
    exact ⟨⟨rfl, rfl⟩, rfl, rfl, rfl, rfl⟩
  · unfold offerAnswer at h
    split at h <;> cases h
    exact ⟨⟨rfl, rfl⟩, rfl, rfl, rfl, rfl⟩
  · unfold offerReport at h
    split at h
    · rename_i f _ _ _
      cases h
      obtain ⟨l, m, e⟩ := enterIdle_eq { s with rtq.report := some f, ste.report := none }
      rw [e]
      exact ⟨⟨rfl, rfl⟩, rfl, rfl, rfl, rfl⟩
    · cases h
  · exact dealAtChainEnd_still (examineHead_still q h)
  · exact admissionPass_still h
  · unfold startTxB at h
    repeat' split at h
    all_goals cases h
    all_goals exact ⟨⟨rfl, rfl⟩, rfl, rfl, rfl, rfl⟩
  · unfold startTxA at h
    repeat' split at h
    all_goals cases h
    all_goals exact ⟨⟨rfl, rfl⟩, rfl, rfl, rfl, rfl⟩

/-- Nothing moves where nothing is about to launch. -/
theorem settled_still (s : State) (q : s.frontStill) (c : s.calm) : Still s (settled s) :=
  (settle_keeps (P := fun s => s.frontStill ∧ s.calm) (R := Still) Still.refl (fun _ _ _ => Still.trans)
    (fun _ _ p h =>
      have k := react_still p.1 p.2 h
      ⟨⟨(react_kept p.1 h).still p.1, k.calm p.2⟩, k⟩) _ s ⟨q, c⟩).2

end Sys2Proof.Machine
end

