-- ==== Sys2Proof/Tests/Slice0.lean ====
section
/-! SUPPORT. Tests. Expected results are the manual's own worked figures (sections named at each test). The witness theorems
show, for the statement each is named after, states and operands that meet its hypotheses, clause by clause. -/

namespace Sys2Proof.Tests

open Sys2Proof Sys2Proof.Machine

set_option maxRecDepth 20000
set_option Elab.async false

/-! ## States -/

/-- A check of the next state of a command. -/
def after (o : Host.Outcome State Fault Refusal) (p : State → Bool) : Bool :=
  match o with
  | .next t => p t
  | .fault f => nomatch f
  | .refused _ => false

/-- In CONFIG after the first event, every flag cleared. -/
def ready : State := { State.reset with evu.readDue := none, evu.latched := 0 }

/-- The classes of section 11.1. -/
def c1 : ClassRec :=
  { kind := .latchMulti, throws := 6, width := 15000, settle := 5000, current := 400, recovery := 2000, lockout := 0,
    sense := true, wearLimit := 0 }

def c3 : ClassRec :=
  { kind := .latchTransfer, throws := 2, width := 10000, settle := 5000, current := 300, recovery := 2000, lockout := 0,
    sense := true, wearLimit := 0 }

/-- Values of E0, E8 and E9, with one value for every other element. -/
def three {α : Type} (rest e0 e8 e9 : α) : Vector α 48 := (((Vector.replicate 48 rest).set 0 e0).set 8 e8).set 9 e9

def p0 : PathRec := { mask := 63, targets := three 0 0 2 0, hold := false, dwell := 0, report := [] }
def p20 : PathRec := { mask := 3, targets := three 0 2 1 4, hold := true, dwell := 3000, report := [0, 1] }
def p21 : PathRec := { mask := 1, targets := three 0 1 0 0, hold := false, dwell := 3000, report := [0] }

def link (a b : Node) : Option LinkRec := some { a := a, b := b, row := none }

/-- The links of section 1.7. -/
def u1Links : List (Option LinkRec) :=
  [link (.source 0) (.common 0), link (.throw 0 1) (.terminal 0), link (.throw 0 2) (.common 9),
    link (.throw 0 3) (.throw 9 3), link (.throw 9 1) (.terminal 6), link (.throw 9 4) (.terminal 5),
    link (.source 1) (.common 8), link (.throw 8 1) (.terminal 7), link (.throw 8 2) (.throw 9 2)]

/-- The tables of U1 (section 11.1). -/
def u1Tables : Tbs :=
  { State.reset.tbs with
    classes := ((Vector.replicate 8 none).set 1 (some c1)).set 3 (some c3)
    elements := three .notFitted (.fitted 1) (.fitted 3) (.fitted 1)
    links := Vector.ofFn (fun i : Fin 160 => (u1Links[i.val]?).join)
    interlock := ((Vector.replicate 64 none).set 0 (some (1, 6))).set 1 (some (0, 7))
    paths := (((Vector.replicate 256 none).set 0 (some p0)).set 20 (some p20)).set 21 (some p21)
    core := { budget := 1000, safeIndex := some 0, slotInterval := 60 } }

/-- U1 in RUN at its safe routing (section 11.3). -/
def u1 : State :=
  { ready with
    tbs := u1Tables
    csd.recorded := three (some 0) (some 0) (some 2) (some 0)
    mdc.mode := .run }

/-- Step A's changing set (section 11.4). -/
def changingA : Targets := three none (some 2) (some 1) (some 4)

def identA : StepIdent := { tag := 100, index := 20, quiet := false, freq := 2140, status := 0 }

/-- A frame from above as its bytes. -/
def frameOf (kind dest : Byte) (tag : BitVec 16) (payload : List Byte) : List Byte :=
  ({ kind := kind, dest := dest, src := 0, tag := tag, payload := payload, check := 0 } : Frame).wireBytes true .even

/-- Step frames of index 20, plain and with PREEMPT. -/
def stepA : List Byte := frameOf 1 63 100 [20, 0, 0x08, 0x5C, 0]
def stepPreempt : List Byte := frameOf 1 63 101 [20, 1, 0x08, 0x5C, 0]
def foreign : List Byte := frameOf 0x20 9 7 [1, 2, 3]
def safeAll : List Byte := frameOf 7 63 7 [0x5A]

def entryOf (bs : List Byte) (status : HeadStatus) : FwdEntry := { frame := parseFrame bs, status := status, own := false }

/-- U1 with step A taken, its evaluation's walk standing at the last source. -/
def checking : State :=
  { u1 with
    fwq.queue := [entryOf stepA .held]
    ste.st := .checking
    ste.ident := some identA
    ste.snapshot := some p20
    ste.changing := changingA
    rev.evaluation := some
      { sets := three [0] [0, 2] [1, 2] [0, 4], since := 0, walk := walkFrom 7 } }

/-- A pulse of E0 toward 2, launched at 500 (section 11.4). -/
def pulseA (drive : Drive) (phase : Phase) : Pulse :=
  { origin := some 0, target := 2, drive := drive, current := 400, recovery := 2000, launchAt := 500, endAt := 15500,
    landAt := 20500, phase := phase }

/-- U1 with one pulse of E0 in flight. -/
def flying (drive : Drive) (phase : Phase) : State :=
  { u1 with now := 500, csd.pulses := (Vector.replicate 48 none).set 0 (some (pulseA drive phase)) }

/-- Step A in ACTUATING with E0 in flight. -/
def actuating (phase : Phase) : State :=
  { flying (.step 0) phase with
    ste.st := .actuating
    ste.ident := some identA
    ste.snapshot := some p20
    ste.changing := (Vector.replicate 48 none).set 0 (some 2) }

/-- A verify of BK0 in progress. -/
def verifying (k : VerifyKind) : State := { u1 with vfu.activity := .verifying 0 k 1500 }

/-- The contacts of BK0 with E0 at a position. -/
def e0At (p : Nat) : List (BitVec 7) := BitVec.ofNat 7 (2 ^ p) :: List.replicate 7 0

def request : Request := { tag := 40, payload := [3, 1] }

/-- ENTRY, its sequence at a bank. -/
def entering (b : Bank) (o : EntryOrigin) : State :=
  { u1 with
    mdc.mode := .entry o .enterRun
    mga := .serving request
    vfu.activity := .verifying 0 .command 1500
    vfu.inHand := some (.entry b) }

/-- A line at high that carries an input function (X1 RF_PRESENT_IN, X2 DOOR_IN). -/
def withInput (fn : LineFn) (i : Fin 4) (high : Bool) (s : State) : State :=
  { s with
    axu.records := s.axu.records.set i { fn := fn, polarity := .activeHigh }
    axu.levels := s.axu.levels.set i high }

/-- The head of a request at instant 10 for this node, and of a broadcast one. -/
def toNode : ReqHead := { time := 10, dest := 5, src := 0, tag := 40 }
def toAll : ReqHead := { time := 10, dest := 63, src := 0, tag := 40 }

/-- The answer that a state has put on Port A's transmitter: its payload. -/
def sentAnswer (s : State) : Option (List Byte) := s.lnk.a.tx.map (fun t => (parseFrame t.bytes).payload)

/-! ## Well-formedness: each check refuses an ill-formed command -/

theorem test_wf_destination : (Instr.enterRun { toNode with dest := 64 }).wellFormed = false := by decide
theorem test_wf_source : (Instr.fetch { toNode with src := 64 } 1 0).wellFormed = false := by decide
theorem test_wf_record : (Instr.load toNode 1 0 (List.replicate 237 0)).wellFormed = false := by decide
theorem test_wf_record_longest : (Instr.load toNode 1 0 (List.replicate 236 0)).wellFormed = true := by decide
theorem test_wf_contacts : (Instr.verifyComplete (List.replicate 7 0)).wellFormed = false := by decide
theorem test_wf_reception_empty : (Instr.frameReceived 0 .a []).wellFormed = false := by decide
theorem test_wf_reception_long : (Instr.frameReceived 0 .a (List.replicate 248 0)).wellFormed = false := by decide
theorem test_wf_reception_longest : (Instr.frameReceived 0 .a (List.replicate 247 0)).wellFormed = true := by decide

/-- No row of the table has bits, so no word spells a command. -/
theorem test_decode_none : decodeTableWord 8 1 = none := rfl

/-! ## Layouts and arithmetic -/

/-- Section 12.6: a CLASS record byte by byte (C1 of section 11.1). -/
theorem test_class_record :
    decodeClass [1, 0, 6, 0, 0, 0x3A, 0x98, 0, 0, 0x13, 0x88, 0x01, 0x90, 0x07, 0xD0, 0, 0, 0, 0, 1, 0, 0, 0, 0]
      = .ok (some c1) := by decide +kernel

/-- R42: a dwell of 2,000,000 µs is refused, naming field 4 (section 8.6). -/
theorem test_path_dwell :
    (decodePath u1Tables ([1, 0] ++ zeros 48 ++ [0, 0, 0x1E, 0x84, 0x80, 0] ++ zeros 8)
      matches .error { number := 4, sub := 0 }) = true := by decide +kernel

/-- The route of section 2.5 and its rows at grid points 3 and 4. -/
def lossTables : Tbs :=
  let row (a b : Int) : Option LossRow := some #v[0, 0, 0, a, b, 0, 0, 0]
  { u1Tables with
    grid := some #v[700, 800, 900, 1800, 2700, 3500, 5000, 6000]
    links := ((u1Tables.links.set 0 (some { a := .source 0, b := .common 0, row := row 35 42 })).set 2
      (some { a := .throw 0 2, b := .common 9, row := row 120 151 })).set 5
      (some { a := .throw 9 4, b := .terminal 5, row := row 410 520 })
    eloss := (u1Tables.eloss.set 0 ((Vector.replicate 6 none).set 1 (row 18 21))).set 9
      ((Vector.replicate 6 none).set 3 (row 25 30)) }

/-- Section 2.5: 2,140 MHz gives IN_GRID, 667, over two hops to T5. -/
theorem test_worked_loss :
    routeEntry lossTables { u1.csd with recorded := three (some 0) (some 2) (some 1) (some 4) } 2140 0 =
      { source := 0, outcome := .terminal 5, hops := 2, lossFlag := .inGrid, loss := 667, sat := false } := by
  decide +kernel

/-- Section 2.5: the halves of 18.5 and −4.5 are rounded away from zero. -/
theorem test_rounding : interpolate 391 428 800 900 850 = 410 ∧ interpolate 300 291 100 200 150 = 295 := by decide

/-- Section 2.6: a partial sum is clamped, and later additions start from the clamp. -/
theorem test_saturation :
    (((RouteSum.mk 29500 false).add 3900).add (-3500)) = { value := 29267, sat := true } := by decide

/-- Section 6.9's matrix is valid, and so is its safe record's span (section 11.3). -/
theorem test_valid_tables : validate u1Tables = none := by decide +kernel

/-! ## Commands -/

/-- R178, R164: the flags hold POWER_UP alone, the marker is 0, every position is UNKNOWN. -/
theorem test_power_on :
    after (exec (.powerOn 7 resetPins) u1) (fun t =>
      t.evu.latched == 0x2000 && t.tbs.marker == 0 && allElems.all (fun e => t.csd.recorded[e].isNone)) = true := by
  decide +kernel

/-- R68: no pulse is in flight once RESET_N is asserted. -/
theorem test_reset_n : after (exec (.resetN 600) (flying .safe .driving)) (fun t => t.inReset && !t.csd.anyInFlight) = true := by
  decide +kernel

/-- R134: the release samples the straps. -/
theorem test_release :
    after (exec (.resetNRelease 9 { resetPins with addr := 9 }) { u1 with inReset := true }) (fun t =>
      t.lnk.addr == 9 && t.mdc.mode == .config && !t.inReset) = true := by decide +kernel

/-- Section 11.2: the first event after power-on sends ALERT 1 from 5 with flag set POWER_UP and mode CONFIG. -/
theorem test_first_alert :
    after (exec (.levelConditionsRead 0) State.reset) (fun t =>
      t.lnk.a.tx.any (fun x => x.bytes == [6, 0, 5, 0, 1, 5, 0x20, 0, 0x20, 0, 0, 0x07])) = true := by decide +kernel

/-- R129: a link-up event sends the mark before any frame. -/
theorem test_link_up :
    after (exec (.linkUp 3 .b) { ready with lnk.b.link := .down }) (fun t =>
      t.lnk.b.link == .up && t.lnk.b.wire == [.mark .go]) = true := by decide +kernel

/-- R129, R147: a link-down event cuts the transmission, keeps the frame and makes the received mark GO. -/
theorem test_link_down :
    after (exec (.linkDown 3 .b)
      { ready with
        fwq.queue := [entryOf foreign .released]
        lnk.b.received := .pause
        lnk.b.tx := some { source := .forwardHead, bytes := foreign, flushed := false }
        mga := .serving request }) (fun t =>
      t.lnk.b.tx == none && t.lnk.b.received == .go && t.fwq.queue.length == 1) = true := by decide +kernel

/-- Section 11.4, instant 0: step A is taken, with the changing set and the sets given there. -/
theorem test_step_taken :
    after (exec (.frameReceived 0 .a stepA) u1) (fun t =>
      t.ste.st == .checking && t.ste.changing == changingA &&
        t.rev.evaluation.any (fun v => v.sets == three [0] [0, 2] [1, 2] [0, 4])) = true := by decide +kernel

/-- R48: in CONFIG a step frame goes on stamped SKIPPED. -/
theorem test_step_skipped :
    after (exec (.frameReceived 0 .a stepA) ready) (fun t =>
      t.lnk.b.tx.any (fun x => x.bytes == frameOf 1 63 100 [20, 0, 0x08, 0x5C, 2])) = true := by decide +kernel

/-- Section 11.7, instant 71,000: a step frame that waited behind RESUME is taken in RUN at the end of ENTRY, and not skipped. -/
theorem test_step_behind_resume :
    after (exec (.verifyComplete (e0At 0)) { entering 5 .safe with fwq.queue := [entryOf stepA .waiting] }) (fun t =>
      t.mdc.mode == .run && t.ste.st == .checking && t.fwq.queue == [entryOf stepA .held]) = true := by decide +kernel

/-- R147: a mark is held until the next. -/
theorem test_flow_mark : after (exec (.flowMarkReceived 1 .b .pause) u1) (fun t => t.lnk.b.received == .pause) = true := by
  decide +kernel

/-- R130: marks that waited follow the frame. -/
theorem test_transmission_end :
    after (exec (.transmissionEnd 4 .a)
      { ready with
        rtq.queue := [{ frame := parseFrame foreign, own := false }]
        lnk.a.tx := some { source := .returnHead, bytes := foreign, flushed := false }
        lnk.a.marksWaiting := [.pause] }) (fun t =>
      t.rtq.queue == [] && t.lnk.a.wire == [.mark .pause, .frame foreign]) = true := by decide +kernel

/-- Section 11.4, instant 500: E0 and E8 launch (700 mA in all), E9 waits; frame A stays held. -/
theorem test_verdict_pass :
    after (exec (.spanVerdict 500) checking) (fun t =>
      t.csd.charged == 700 && t.csd.isDriving 0 && t.csd.isDriving 8 && t.csd.pending == three none none none (some 4) &&
        t.fwq.queue.all (fun x => x.status == .held)) = true := by decide +kernel

/-- R54: the grace timer's expiry ends the step FAILED_HOT, severity 4. -/
theorem test_grace :
    after (exec .graceTimerExpiry { checking with ste.st := .muting, ste.grace := some 100500, rev.evaluation := none })
      (fun t => t.now == 100500 && t.ste.outcome == some .failedHot &&
        t.lnk.b.tx.any (fun x => x.bytes == frameOf 1 63 100 [20, 0, 0x08, 0x5C, 4])) = true := by decide +kernel

/-- Section 11.4, instant 35,500: A ends SETTLED after 35,500 µs. -/
theorem test_dwell :
    after (exec .dwellTimerExpiry { checking with ste.st := .settling, ste.dwell := some 35500, rev.evaluation := none })
      (fun t => t.ste.outcome == some .settled && t.ste.elapsed == 35500 && t.ste.st == .reportWait && t.ste.settledMark) = true := by
  decide +kernel

/-- Section 12.3: the report of a step with one route entry, byte by byte. -/
theorem test_report :
    after (exec (.routeRequestComplete 35600)
      { u1 with
        ste.st := .reportWait
        ste.ident := some identA
        ste.outcome := some .settled
        ste.elapsed := 35500
        rev.route := some { since := 35500, results :=
          [{ source := 0, outcome := .terminal 5, hops := 2, lossFlag := .inGrid, loss := 667, sat := false }] } }) (fun t =>
      t.ste.st == .idle &&
        sentAnswer t == some [20, 0, 0, 0, 0, 0, 0x8A, 0xAC, 1, 0, 0, 5, 2, 0, 0, 0x02, 0x9B]) = true := by decide +kernel

/-- Section 11.4: E0's pulse ends at 15,500, and BK0 recovers until 17,500 (R 2,000). -/
theorem test_pulse_end :
    after (exec (.pulseEnd 0) (actuating .driving)) (fun t =>
      t.now == 15500 && t.csd.charged == 0 && t.csd.recoveryUntil[0] == some 17500 && t.csd.inTransit 0) = true := by
  decide +kernel

/-- Section 11.4: E0 lands at 2 at 20,500, and as the last landing lets the step settle: 3,000 µs of dwell. -/
theorem test_pulse_land :
    after (exec (.pulseLand 0) (actuating .settleTime)) (fun t =>
      t.csd.recorded[0] == some 2 && t.ste.st == .settling && t.ste.dwell == some 23500) = true := by decide +kernel

/-- Section 11.4: E9 launches at 12,500, when BK1 has recovered. -/
theorem test_recovery_reached :
    after (exec (.bankRecoveryReached 1)
      { u1 with
        now := 10500
        csd.pending := three none none none (some 4)
        csd.drive := some (.step 0)
        csd.recoveryUntil := (Vector.replicate 6 none).set 1 (some 12500) }) (fun t =>
      t.now == 12500 && t.coilDrive 9 == some 4 && t.tbs.wear[9] == 1) = true := by decide +kernel

/-- Section 4.4: a lockout of 60,000 µs after a launch at 0 elapses at 60,000, and the element launches. -/
theorem test_lockout :
    after (exec (.lockoutElapsed 0)
      { u1 with
        tbs.classes := u1Tables.classes.set 1 (some { c1 with lockout := 60000 })
        csd.pending := three none (some 1) none none
        csd.drive := some (.step 0)
        csd.lastLaunch := (Vector.replicate 48 none).set 0 (some 0) }) (fun t =>
      t.now == 60000 && t.coilDrive 0 == some 1) = true := by decide +kernel

/-- Section 4.4 (R74): BK0's pulse ends at the instant at which E0's lockout elapses; with the pulse end taken first E0 is still
locked out, and E1 takes the current. -/
theorem test_lockout_order :
    after (exec (.pulseEnd 2)
      { u1 with
        tbs.classes := u1Tables.classes.set 1 (some { c1 with lockout := 60000, recovery := 0 })
        tbs.elements := ((u1Tables.elements.set 1 (.fitted 1)).set 2 (.fitted 1))
        csd.recorded := (u1.csd.recorded.set 1 (some 0)).set 2 (some 0)
        csd.pulses := (Vector.replicate 48 none).set 2
          (some { pulseA (.step 0) .driving with recovery := 0, launchAt := 45000, endAt := 60000, landAt := 65000 })
        csd.pending := ((Vector.replicate 48 none).set 0 (some 1)).set 1 (some 1)
        csd.drive := some (.step 0)
        csd.lastLaunch := (Vector.replicate 48 none).set 0 (some 0) }) (fun t =>
      t.now == 60000 && t.coilDrive 1 == some 1 && !t.csd.isDriving 0) = true := by decide +kernel

/-- R50: a take on an absent record makes no report; the frame goes on with its chain status unchanged. -/
theorem test_no_path :
    after (exec (.frameReceived 7 .a (frameOf 1 63 100 [22, 0, 0x08, 0x5C, 0])) u1) (fun t =>
      t.ste.outcome == some .noPath && t.ste.takeAt == 7 && t.ste.st == .idle && t.ste.report == none &&
        t.lnk.b.tx.any (fun x => x.bytes == frameOf 1 63 100 [22, 0, 0x08, 0x5C, 0])) = true := by decide +kernel

/-- Section 4.9: the cut element is UNKNOWN and owed; a pulse that had ended leaves the recovery-until instant. -/
theorem test_supply_loss :
    after (exec (.vcoilLow 16000)
      { flying .safe .settleTime with csd.recoveryUntil := (Vector.replicate 6 none).set 0 (some 17000) }) (fun t =>
      t.csd.recorded[0] == none && t.csd.latch == [{ elem := 0, target := 2, state := .owed }] &&
        t.csd.recoveryUntil[0] == some 17000 && t.evu.latched == 0x4000) = true := by decide +kernel

/-- Section 4.9: at the return in RUN the recovery drive launches, and MUTE_OUT is asserted. -/
theorem test_supply_return :
    after (exec (.supplyReturn 60000)
      { u1 with
        csd.supply := .low
        csd.recorded := three (some 0) none (some 2) (some 0)
        csd.latch := [{ elem := 0, target := 2, state := .owed }] }) (fun t =>
      t.coilDrive 0 == some 2 && t.csd.recoveryActive && t.muteOut &&
        t.csd.latch == [{ elem := 0, target := 2, state := .driving }]) = true := by decide +kernel

/-- Section 11.3: E0 sensed at 0, D −1, round {0}; BK1's verify starts. -/
theorem test_verify_complete :
    after (exec (.verifyComplete (e0At 0)) { entering 0 .config with csd.recorded := three (some 0) none none none })
      (fun t => t.csd.recorded[0] == some 0 && t.vfu.debt == -1 && t.vfu.round == 1 &&
        t.vfu.activity == .verifying 1 .command 3000) = true := by decide +kernel

/-- R95, R174: E0 sensed away from its recorded position signals MISMATCH0 and requests the trip. -/
theorem test_verify_mismatch :
    after (exec (.verifyComplete (e0At 1)) (verifying .ordinary)) (fun t =>
      t.csd.recorded[0] == some 1 && t.evu.latched == 1 && t.mdc.trips == [.mismatch 0]) = true := by decide +kernel

/-- R98: a slot expiry at debt 5 is lost and signals VERIFY_LATE. -/
theorem test_slot_lost :
    after (exec .slotTimerExpiry { verifying .ordinary with vfu.slot := some 60000000, vfu.debt := 5 }) (fun t =>
      t.vfu.debt == 5 && t.evu.latched == 0x0400 && t.vfu.slot == some 120000000) = true := by
  decide +kernel

/-- R99, R100: the idle mark lets a pull-in verify of BK0 start at debt 0. -/
theorem test_idle_lead :
    after (exec .idleLeadExpiry { u1 with vfu.idleLead := some 5000000 }) (fun t =>
      t.vfu.idleMark && t.vfu.activity == .verifying 0 .pullIn 5001500) = true := by decide +kernel

/-- R153: a CORE record is stored and answered ACK. -/
theorem test_load :
    after (exec (.load toNode 5 0 [0x03, 0x20, 0, 7, 0, 30]) ready) (fun t =>
      t.tbs.core == { budget := 800, safeIndex := some 7, slotInterval := 30 } &&
        sentAnswer t == some [1, 5, 0, 0, 0]) = true := by decide +kernel

/-- Section 8.6: in RUN a LOAD of the safe record is answered NAK MODE. -/
theorem test_load_mode :
    after (exec (.load toNode 0x0C 0 (zeros 64)) u1) (fun t => sentAnswer t == some [1, 0x0C, 0, 0, 1, 4]) = true := by
  decide +kernel

/-- R157: the CORE record after reset is 1,000 mA, no safe index, 60 s. -/
theorem test_fetch :
    after (exec (.fetch toNode 5 0) ready) (fun t =>
      sentAnswer t == some [2, 5, 0, 0, 0, 0x03, 0xE8, 0xFF, 0xFF, 0, 60]) = true := by decide +kernel

/-- R109: ENTER_RUN is refused in RUN. -/
theorem test_enter_run : after (exec (.enterRun toNode) u1) (fun t => sentAnswer t == some [3, 1, 1, 9]) = true := by
  decide +kernel

/-- R110, R113: on empty tables ELEMENT_ABSENT fails at E0. -/
theorem test_validation :
    after (exec (.validationComplete 800) { ready with mdc.validating := some 0, mga := .serving request }) (fun t =>
      sentAnswer t == some [3, 1, 1, 7, 1, 0, 0] && t.mdc.mode == .config) = true := by decide +kernel

/-- Section 11.3, instant 800: valid tables lead to ENTRY, and BK0's verify starts. -/
theorem test_validation_passes :
    after (exec (.validationComplete 800)
      { u1 with mdc.mode := .config, mdc.validating := some 0, mga := .serving request }) (fun t =>
      t.mdc.mode == .entry .config .enterRun && t.vfu.activity == .verifying 0 .command 2300) = true := by decide +kernel

/-- Section 11.7, instant 62,000: RESUME leads to ENTRY with origin SAFE. -/
theorem test_resume :
    after (exec (.resume toNode) { u1 with mdc.mode := .safe .held }) (fun t =>
      t.mdc.mode == .entry .safe .resume && t.vfu.activity == .verifying 0 .command 1510) = true := by decide +kernel

/-- R124: ENTER_CONFIG from RUN with the engine IDLE. -/
theorem test_enter_config :
    after (exec (.enterConfig toNode) u1) (fun t => t.mdc.mode == .config && sentAnswer t == some [3, 2, 0]) = true := by
  decide +kernel

/-- R121, R125: ENTER_SAFE at the safe routing finds nothing to drive and is SAFE_HELD at once. -/
theorem test_enter_safe : after (exec (.enterSafe toNode) u1) (fun t => t.mdc.mode == .safe .held) = true := by decide +kernel

/-- Section 11.6, instant 8,000: the trip abandons the step and forms the safe drive of E0, in transit 0 → 2 and sent to 0;
SAFE_ENTERED and STEP_FAULT are latched. -/
theorem test_trip :
    after (exec (.trip 8000) { actuating .driving with mdc.trips := [.door] }) (fun t =>
      t.mdc.mode == .safe .driving && t.mdc.outstanding == three none (some 0) none none &&
        t.ste.outcome == some .abandonedSafe && t.evu.latched == 0x1800) = true := by decide +kernel

/-- Section 8.6, instant 0: VERIFY_ALL is accepted and BK0's verify starts. -/
theorem test_verify_all :
    after (exec (.verifyAll toNode) u1) (fun t =>
      t.vfu.activity == .verifying 0 .command 1510 && t.mga == .serving { tag := 40, payload := [3, 5] }) = true := by
  decide +kernel

/-- R187: a bank above 5 is refused RANGE; R104: one in the round, ALREADY. -/
theorem test_verify_bank :
    after (exec (.verifyBank toNode 6) u1) (fun t => sentAnswer t == some [3, 6, 1, 2]) = true ∧
    after (exec (.verifyBank toNode 5) { u1 with vfu.round := 0x20 }) (fun t => sentAnswer t == some [3, 6, 1, 10]) = true := by
  decide +kernel

/-- Section 11.2: the answer is {POWER_UP}, and the latched set is empty after it. -/
theorem test_read_clear :
    after (exec (.readClearEvents toNode 0xFFFF) { ready with evu.latched := 0x2000 }) (fun t =>
      t.evu.latched == 0 && sentAnswer t == some [3, 7, 0, 0x20, 0]) = true := by decide +kernel

/-- R162: the counters are 0 after CLEAR_COUNTERS. -/
theorem test_clear_counters :
    after (exec (.clearCounters toNode) { ready with lnk.a.checkErrors := 65535, lnk.fwdDrops := 3, evu.hotCount := 9 }) (fun t =>
      t.lnk.a.checkErrors == 0 && t.lnk.fwdDrops == 0 && t.evu.hotCount == 0) = true := by decide +kernel

/-- Section 11.2: SET_MARKER 2,561. -/
theorem test_set_marker :
    after (exec (.setMarker toNode 2561) u1) (fun t =>
      t.tbs.marker == 2561 && sentAnswer t == some [3, 9, 0, 0, 0, 0x0A, 0x01]) = true := by decide +kernel

/-- R165, R166: with a pulse in flight the acknowledgement is held, and the pulse goes on. -/
theorem test_soft_reset :
    after (exec (.softReset toNode) (flying .safe .driving)) (fun t =>
      t.mdc.mode == .config && t.rtq.responseHeld && t.csd.isDriving 0 && t.lnk.a.tx == none && t.evu.latched == 0) = true := by
  decide +kernel

/-- Section 11.6: the door opens at X2; DOOR is latched and the trip requested. -/
theorem test_door :
    after (exec (.presentedSignalChange 8000 2 true) (withInput .doorIn 2 false u1)) (fun t =>
      t.evu.latched == 0x8000 && t.mdc.trips == [.door]) = true := by decide +kernel

/-! ## Witnesses: states and operands that meet the hypotheses of the statements -/

theorem still_of_empty (s : State) (h : s.fwq.queue = []) : s.frontStill := by
  refine Or.inl ?_
  intro x hx
  rw [h] at hx
  cases hx

theorem quiet_of_empty (s : State) (h : s.fwq.queue = []) : s.headQuiet := by
  intro x hx
  rw [h] at hx
  cases hx

theorem running_ready : ready.running := And.intro rfl rfl
theorem running_u1 : u1.running := And.intro rfl rfl
theorem idle_u1 : u1.ste.st ≠ .actuating ∧ u1.ste.st ≠ .reportWait := by decide +kernel
theorem calm_u1 : u1.calm := And.intro rfl (by decide +kernel)

/-- An agent that is busy blocks the front. -/
theorem blocked_of_serving (s : State) (r : Request) (h : s.mga = .serving r) (hh : s.rtq.responseHeld = false) :
    s.frontBlocked := Or.inl ⟨⟨r, h⟩, hh⟩

/-- Changes of a state: to the chain end, to a transparent part, to a mode, to a low supply. -/
def chainEnd (s : State) : State := { s with lnk.b.link := .down }
def transparent (s : State) : State := { s with lnk.addr := 63 }
def inMode (m : Mode) (s : State) : State := { s with mdc.mode := m }
def lowSupply (s : State) : State := { s with csd.supply := .low }

/-- The Return Queue with no room above the hold margin, its head in transmission; an outbox frame then waits. -/
def congested (s : State) : State :=
  { s with
    rtq.queue := List.replicate 21 { frame := parseFrame foreign, own := false }
    lnk.a.tx := some { source := .returnHead, bytes := foreign, flushed := false } }

/-- The same, with an echo in its outbox. -/
def echoWaits (s : State) : State := congested { s with rtq.echo := some (parseFrame foreign) }

/-- An ALERT frame that waits, with every flag latched. -/
def alerted (s : State) : State :=
  congested { s with
    evu.latched := 0xFFFF
    rtq.alert := some { tag := 1, flags := 0xFFFF, raised := 0xFFFF, mode := s.mdc.mode.shown } }

theorem witness_StepRunsTheFrontCommand :
    ({ ready with pending := [.trip 1, .slotTimerExpiry] } : State).pending = .trip 1 :: [.slotTimerExpiry] ∧
      ready.pending = [] := ⟨rfl, rfl⟩

theorem witness_ResetEventsSetEveryValue : ({ u1 with inReset := true } : State).inReset = true := rfl

theorem witness_AssertedResetStopsThePart :
    ({ u1 with inReset := true } : State).inReset = true ∧ (∀ t p, Instr.trip 4 ≠ .powerOn t p) ∧
      (∀ t, Instr.trip 4 ≠ .resetN t) ∧ (∀ t p, Instr.trip 4 ≠ .resetNRelease t p) ∧ u1.inReset = false :=
  ⟨rfl, by simp, by simp, by simp, rfl⟩

theorem witness_LevelConditionsAreRead :
    let s := lowSupply (withInput .doorIn 2 true State.reset)
    s.inReset = false ∧ s.evu.readDue = some .hard ∧ s.frontStill ∧ s.csd.supply = .low ∧ s.doorIn = true ∧
      s.tbs.runtime.tripMask.getLsbD 6 = true ∧ s.calm ∧ s.lnk.transparent = false ∧
      s.tbs.runtime.alertMask.getLsbD Flag.powerUp.bit = false ∧ s.rtq.alert = none :=
  ⟨rfl, rfl, still_of_empty _ rfl, rfl, by decide +kernel, by decide +kernel, And.intro rfl (by decide +kernel),
    by decide +kernel, by decide +kernel, rfl⟩

theorem witness_LinkUpSendsTheMark :
    let a := { u1 with lnk.a.link := .down }
    let b := chainEnd u1
    (a.running ∧ a.frontStill ∧ (a.lnk.port .a).link = .down ∧ (a.lnk.port .a).tx = none) ∧
      b.running ∧ b.frontStill ∧ (b.lnk.port .b).link = .down ∧ (b.lnk.port .b).tx = none :=
  ⟨⟨running_u1, still_of_empty _ rfl, rfl, rfl⟩, running_u1, still_of_empty _ rfl, rfl, rfl⟩

theorem witness_LinkDownKeepsTheQueues :
    let x : Tx := { source := .forwardHead, bytes := foreign, flushed := false }
    let s := { u1 with fwq.queue := [entryOf foreign .released], fwq.slot := some (parseFrame safeAll), lnk.b.tx := some x }
    let step := { s with fwq.queue := [entryOf stepA .released] }
    (s.running ∧ s.headQuiet ∧ s.lnk.a.link = .up ∧ (∀ y, s.lnk.a.tx = some y → y.flushed = false) ∧ s.lnk.b.link = .up ∧
      (∀ y, s.lnk.b.tx = some y → y.flushed = false) ∧ s.mga = .idle ∧ s.calm ∧ (entryOf foreign .released).frame.isStep = false) ∧
      (step.running ∧ step.headQuiet ∧ step.mga = .idle ∧ step.rtq.echo = none ∧ (entryOf stepA .released).frame.isStep = true ∧
      ∀ y ∈ ([] : List FwdEntry).head?, y.status ≠ .released) ∧
      (echoWaits step).running ∧ (echoWaits step).headQuiet ∧ ((echoWaits step).advance 3).complete ∧
      (echoWaits step).rtq.echo ≠ none ∧ (echoWaits step).lnk.b.link = .up := by
  refine ⟨⟨running_u1, ?_, rfl, (fun y h => by cases h), rfl, (fun y h => by cases h; rfl), rfl, calm_u1, by decide +kernel⟩,
    ⟨running_u1, ?_, rfl, rfl, by decide +kernel, fun y h => by cases h⟩, running_u1, ?_, ?_, by simp [echoWaits, congested], rfl⟩
  case refine_4 =>
    unfold State.complete
    decide +kernel
  all_goals
    unfold State.headQuiet
    decide +kernel

theorem foreign_ok : frameCheckOk .even foreign = true := by decide +kernel

theorem preempt_ok : frameCheckOk .even stepPreempt = true := by decide +kernel

theorem witness_BadFramesAreCounted :
    u1.running ∧ u1.frontStill ∧ (u1.lnk.port .a).link = .up ∧ (u1.lnk.port .b).link = .up ∧
      frameCheckOk u1.lnk.sense [1, 63] = false :=
  ⟨running_u1, still_of_empty _ rfl, rfl, rfl, by decide +kernel⟩

theorem witness_ForwardQueueAdmits :
    let s (n : Nat) := { u1 with mga := .serving request, fwq.queue := List.replicate n (entryOf foreign .waiting) }
    ∀ n ∈ [0, 31, 32], (s n).running ∧ (s n).lnk.a.link = .up ∧ frameCheckOk (s n).lnk.sense foreign = true ∧
      (parseFrame foreign).kind ≠ kindUrgent ∧ (s n).frontBlocked ∧ (s n).frontStill ∧ (s n).fwq.queue.length = n := by
  intro s n hn
  refine ⟨running_u1, rfl, foreign_ok, by decide +kernel, blocked_of_serving _ _ rfl rfl,
    Or.inr (blocked_of_serving _ _ rfl rfl), by simp [s]⟩

theorem witness_ReturnTrafficIsPassed :
    let s (n : Nat) := { u1 with rtq.queue := List.replicate n { frame := parseFrame foreign, own := false } }
    ∀ n ∈ [0, 23, 24], (s n).running ∧ (s n).frontStill ∧ (s n).lnk.b.link = .up ∧
      frameCheckOk (s n).lnk.sense foreign = true ∧ (s n).rtq.queue.length = n ∧ (s n).calm := by
  intro s n hn
  exact ⟨running_u1, still_of_empty _ rfl, rfl, foreign_ok, by simp [s], calm_u1⟩

theorem witness_UrgentFramesActAtArrival :
    let full := { u1 with fwq.slot := some (parseFrame safeAll) }
    let e := chainEnd u1
    (u1.running ∧ u1.frontStill ∧ u1.lnk.a.link = .up ∧ u1.lnk.b.link = .up ∧ u1.fwq.slot = none ∧ u1.lnk.b.tx = none) ∧
      (full.running ∧ full.frontStill ∧ full.headQuiet ∧ full.lnk.a.link = .up ∧ full.lnk.b.link = .up ∧
        full.fwq.slot = some (parseFrame safeAll) ∧ (∀ x, full.lnk.b.tx = some x → x.flushed = false) ∧
        ∀ x ∈ full.fwq.queue.head?, x.status ≠ .released) ∧
      (e.running ∧ e.headQuiet ∧ e.lnk.a.link = .up ∧ e.lnk.b.link = .down ∧ e.fwq.slot = none) ∧
      frameCheckOk u1.lnk.sense safeAll = true ∧ (parseFrame safeAll).kind = kindUrgent :=
  ⟨⟨running_u1, still_of_empty _ rfl, rfl, rfl, rfl, rfl⟩,
    ⟨running_u1, still_of_empty _ rfl, quiet_of_empty _ rfl, rfl, rfl, rfl, (fun x h => by cases h), fun x h => by cases h⟩,
    ⟨running_u1, quiet_of_empty _ rfl, rfl, rfl, rfl⟩, by decide +kernel, by decide +kernel⟩

theorem witness_FlowMarksAreHeld :
    let s := { u1 with lnk.b.received := .pause, fwq.queue := [entryOf foreign .released] }
    (s.running ∧ s.frontStill ∧ (s.lnk.port .b).link = .up ∧ (s.advance 4).complete ∧ s.lnk.b.tx = none ∧
      s.fwq.slot = none ∧ s.fwq.queue = [entryOf foreign .released]) ∧
      ((chainEnd u1).running ∧ (chainEnd u1).frontStill ∧ ((chainEnd u1).lnk.port .b).link = .down) ∧
      let back : RetEntry := { frame := parseFrame foreign, own := false }
      let a := { u1 with lnk.a.received := .pause, rtq.queue := [back] }
      a.running ∧ a.frontStill ∧ (a.lnk.port .a).link = .up ∧ (a.advance 4).complete ∧ a.lnk.a.tx = none ∧
        a.rtq.queue = [back] := by
  refine ⟨⟨running_u1, Or.inl ?_, rfl, ?_, rfl, rfl, rfl⟩, ⟨running_u1, still_of_empty _ rfl, rfl⟩, running_u1,
    still_of_empty _ rfl, rfl, ?_, rfl, rfl⟩
  · unfold State.headQuiet
    decide +kernel
  all_goals
    unfold State.complete
    decide +kernel

theorem witness_TransmissionsEnd :
    let x (c : TxSource) : Tx := { source := c, bytes := foreign, flushed := false }
    let a := { u1 with rtq.queue := [{ frame := parseFrame foreign, own := false }], lnk.a.tx := some (x .returnHead) }
    let f := { u1 with fwq.queue := [entryOf foreign .released], lnk.b.tx := some (x .forwardHead) }
    let g := { u1 with fwq.slot := some (parseFrame safeAll), lnk.b.tx := some (x .urgentSlot) }
    let both (c : TxSource) (m : Mark) := { f with fwq.slot := some (parseFrame safeAll), lnk.b.tx := some (x c), lnk.b.received := m }
    (∀ c m, (both c m).running ∧ (both c m).headQuiet ∧ (both c m).lnk.b.tx = some (x c) ∧ (both c m).lnk.b.link = .up ∧
      (both c m).lnk.b.received = m ∧ (both c m).fwq.slot = some (parseFrame safeAll) ∧
      (both c m).fwq.queue = [entryOf foreign .released]) ∧
    (a.running ∧ a.headQuiet ∧ a.lnk.a.tx = some (x .returnHead)) ∧
      (f.running ∧ f.headQuiet ∧ f.lnk.b.tx = some (x .forwardHead)) ∧
      (g.running ∧ g.headQuiet ∧ g.lnk.b.tx = some (x .urgentSlot)) ∧
      let full := { a with
        rtq.queue := List.replicate 21 { frame := parseFrame foreign, own := false }
        rtq.echo := some (parseFrame stepA) }
      full.running ∧ full.headQuiet ∧ full.lnk.a.tx = some (x .returnHead) ∧ (full.advance 4).complete ∧ full.lnk.a.link = .up ∧
        full.lnk.b.link = .up ∧ full.mga = .idle ∧ full.ste.st = .idle ∧ full.lnk.a.received = .go ∧
        (admissionPass (endTransmission .a (full.advance 4))).isSome = true := by
  have q : ({ u1 with fwq.queue := [entryOf foreign .released] } : State).headQuiet := by
    unfold State.headQuiet
    decide +kernel
  refine ⟨fun c m => ⟨running_u1, q, rfl, rfl, rfl, rfl, rfl⟩, ⟨running_u1, quiet_of_empty _ rfl, rfl⟩, ⟨running_u1, q, rfl⟩,
    ⟨running_u1, quiet_of_empty _ rfl, rfl⟩, running_u1, quiet_of_empty _ rfl, rfl, ?_, rfl, rfl, rfl, rfl, rfl, by decide +kernel⟩
  · unfold State.complete
    decide +kernel

/-- A foreign frame, a step frame and a request behind a frame in transmission, and as heads that wait for the agent. -/
theorem witness_WaitingHeadsAreExamined :
    let t (c : TxSource) : Tx := { source := c, bytes := foreign, flushed := false }
    let b (y : List Byte) := { u1 with
      fwq.queue := [entryOf foreign .released, entryOf y .waiting]
      lnk.b.tx := some (t .forwardHead) }
    let a (y : List Byte) := { u1 with
      fwq.queue := [entryOf y .waiting]
      mga := .answerWait (parseFrame safeAll)
      rtq.response := some (parseFrame safeAll)
      rtq.queue := List.replicate 21 { frame := parseFrame foreign, own := false }
      lnk.a.tx := some (t .returnHead) }
    ∀ y ∈ [foreign, stepA, frameOf 3 5 40 [2, 5, 0, 0], frameOf 3 63 40 [2, 5, 0, 0]],
      ((b y).running ∧ ((b y).advance 4).complete ∧ (b y).lnk.b.link = .up ∧ (b y).mga = .idle ∧
        (b y).rtq.responseHeld = false ∧ (b y).lnk.b.tx = some (t .forwardHead)) ∧
      (a y).running ∧ ((a y).advance 4).complete ∧ (a y).lnk.b.link = .up ∧ (a y).mga = .answerWait (parseFrame safeAll) ∧
        (a y).rtq.responseHeld = false ∧ (a y).lnk.a.tx = some (t .returnHead) ∧ (a y).rtq.alert = none ∧
        (a y).rtq.queue.length + marginEntries (a y).lnk.margin = 24 ∧ asksSoftReset (parseFrame y) = false := by
  intro t b a y h
  refine ⟨⟨running_u1, ?_, rfl, rfl, rfl, rfl⟩, running_u1, ?_, rfl, rfl, rfl, rfl, rfl, rfl, ?_⟩ <;>
  · first | unfold State.complete | skip
    revert y
    decide +kernel

/-- A released step frame at the chain end behind an occupied echo outbox. -/
theorem witness_WaitingHeadsAreExamined_echo :
    let x := entryOf stepA .released
    let s := echoWaits { chainEnd u1 with fwq.queue := [x] }
    (s.running ∧ s.headQuiet ∧ (s.advance 4).complete ∧ s.mga = .idle ∧ s.lnk.transparent = false ∧ s.lnk.b.link = .down ∧
      s.fwq.queue = [x] ∧ x.status = .released ∧ x.frame.isStep = true ∧ s.rtq.echo = some (parseFrame foreign)) ∧
      (s.rtq.alert = none ∧ s.rtq.response = none ∧ s.rtq.queue.length + marginEntries s.lnk.margin = 24) ∧
      s.lnk.b.tx = none ∧ s.lnk.b.received = .go ∧ s.fwq.slot = none := by
  refine ⟨⟨running_u1, ?_, ?_, rfl, by decide +kernel, rfl, rfl, rfl, by decide +kernel, rfl⟩, ⟨rfl, rfl, rfl⟩, rfl, rfl, rfl⟩
  · unfold State.headQuiet
    decide +kernel
  · unfold State.complete
    decide +kernel

/-- The free entries at which the marks change, margin 3: 3 and 4 after GO, 5 and 6 after PAUSE. With two places above the margin an
admission pass takes the ALERT and the RESPONSE and leaves the ECHO; with the RESPONSE held it takes the ECHO. -/
theorem witness_HoldMarginGovernsTheQueues :
    let s (last : Mark) (n : Nat) :=
      { u1 with lnk.sentFwd := last, fwq.queue := List.replicate n (entryOf foreign .waiting) }
    let out (held : Bool) : Rtq :=
      { u1.rtq with
        queue := List.replicate 19 { frame := parseFrame foreign, own := false }
        alert := some { tag := 1, flags := 1, raised := 1, mode := .run }
        response := some (parseFrame safeAll)
        responseHeld := held
        echo := some (parseFrame stepA) }
    let pass (held : Bool) := (admissionPass { u1 with rtq := out held }).getD u1
    (compareFwd (s .go 29)).lnk.sentFwd = .pause ∧ (compareFwd (s .go 28)).lnk.sentFwd = .go ∧
      (compareFwd (s .pause 27)).lnk.sentFwd = .pause ∧ (compareFwd (s .pause 26)).lnk.sentFwd = .go ∧
      ((pass false).rtq.queue.length = 21 ∧ (pass false).rtq.response = none ∧ (pass false).rtq.echo ≠ none) ∧
      (pass true).rtq.queue.length = 21 ∧ (pass true).rtq.response ≠ none ∧ (pass true).rtq.echo = none := by
  decide +kernel

/-- The front of a state with an empty Forward Queue is open. -/
theorem front_open (s : State) (t : Nat) (r : s.running) (c : react (s.advance t) = none) (l : s.lnk.a.link = .up)
    (i : s.mga = .idle) (q : s.fwq.queue = []) : FrontOpen s t := ⟨r, c, l, i, q⟩

theorem front_ready : FrontOpen ready 5 := front_open _ _ running_ready (by decide +kernel) rfl rfl rfl
theorem front_u1 : FrontOpen u1 5 := front_open _ _ running_u1 (by decide +kernel) rfl rfl rfl

theorem witness_FramesPassUntouched :
    let other := frameOf 3 9 7 [3, 1]
    let own := frameOf 3 63 7 [3, 1]
    (∀ bs ∈ [foreign, other], FrontOpen u1 5 ∧ frameCheckOk u1.lnk.sense bs = true ∧ (parseFrame bs).kind ≠ kindUrgent ∧
      (parseFrame bs).isStep = false ∧
      ((parseFrame bs).kind ≠ kindRequest ∨ ((parseFrame bs).dest ≠ u1.lnk.addrByte ∧ (parseFrame bs).dest ≠ broadcast))) ∧
      (u1.lnk.b.link = .up ∧ u1.lnk.b.tx = none ∧ u1.lnk.b.received = .go ∧ u1.fwq.slot = none) ∧
      (FrontOpen (transparent u1) 5 ∧ frameCheckOk u1.lnk.sense own = true ∧ (parseFrame own).isStep = false ∧
        (transparent u1).lnk.transparent = true) ∧
      FrontOpen (chainEnd u1) 5 ∧ (chainEnd u1).lnk.b.link = .down := by
  refine ⟨?_, ⟨rfl, rfl, rfl, rfl⟩, ⟨front_open _ _ running_u1 (by decide +kernel) rfl rfl rfl, ?_⟩,
    front_open _ _ running_u1 (by decide +kernel) rfl rfl rfl, rfl⟩
  · intro bs h
    refine ⟨front_u1, ?_⟩
    revert bs
    decide +kernel
  · decide +kernel

theorem witness_SkippedStepsAreStamped :
    frameCheckOk ready.lnk.sense stepA = true ∧ (parseFrame stepA).isStep = true ∧
      (FrontOpen ready 5 ∧ ready.mdc.mode ≠ .run ∧ ready.lnk.b.link = .up) ∧
      (FrontOpen (inMode (.entry .safe .resume) u1) 5 ∧ (inMode (.entry .safe .resume) u1).mdc.mode ≠ .run) ∧
      (FrontOpen (chainEnd ready) 5 ∧ (chainEnd ready).mdc.mode ≠ .run ∧ (chainEnd ready).lnk.transparent = false ∧
        (chainEnd ready).rtq.echo = none) ∧
      (FrontOpen (chainEnd (transparent u1)) 5 ∧ (chainEnd (transparent u1)).lnk.transparent = true) ∧
      (FrontOpen (echoWaits (chainEnd ready)) 5 ∧ (echoWaits (chainEnd ready)).mdc.mode ≠ .run ∧
        (echoWaits (chainEnd ready)).rtq.echo ≠ none) ∧
      let e := entering 2 .config
      e.running ∧ (e.advance 5).complete ∧ e.lnk.a.link = .up ∧ e.mga = .serving request ∧
        e.lnk.transparent = false ∧ e.fwq.queue = [] ∧ frameCheckOk e.lnk.sense stepA = true := by
  refine ⟨by decide +kernel, by decide +kernel, ⟨front_ready, by decide +kernel, rfl⟩,
    ⟨front_open _ _ running_u1 (by decide +kernel) rfl rfl rfl, by decide +kernel⟩,
    ⟨front_open _ _ running_ready (by decide +kernel) rfl rfl rfl, by decide +kernel, by decide +kernel, rfl⟩,
    ⟨front_open _ _ running_u1 (by decide +kernel) rfl rfl rfl, by decide +kernel⟩,
    ⟨front_open _ _ running_ready (by decide +kernel) rfl rfl rfl, by decide +kernel, by decide +kernel⟩, running_u1, ?_, rfl, rfl,
    by decide +kernel, rfl, by decide +kernel⟩
  unfold State.complete
  decide +kernel

theorem witness_StepsAreTaken :
    let absent := frameOf 1 63 100 [22, 0, 0x08, 0x5C, 0]
    FrontOpen u1 5 ∧ u1.mdc.mode = .run ∧ u1.lnk.transparent = false ∧ u1.ste.st = .idle ∧ u1.csd.latch = [] ∧
      (∀ bs ∈ [stepA, absent], frameCheckOk u1.lnk.sense bs = true ∧ (parseFrame bs).isStep = true) ∧
      u1.tbs.stepRecord (parseFrame stepA) = some p20 ∧ u1.tbs.stepRecord (parseFrame absent) = none ∧
      u1.lnk.b.link = .up ∧ (FrontOpen (chainEnd u1) 5 ∧ (chainEnd u1).lnk.b.link = .down ∧ u1.rtq.echo = none) ∧
      (FrontOpen (echoWaits (chainEnd u1)) 5 ∧ (echoWaits (chainEnd u1)).rtq.echo ≠ none) ∧
      let waiting := { u1 with ste.st := .reportWait }
      let latched := { u1 with csd.latch := [{ elem := 0, target := 2, state := .driving }] }
      FrontOpen waiting 5 ∧ FrontOpen (actuating .driving) 600 ∧ (actuating .driving).ste.holdsStep = true ∧
        (parseFrame stepA).preempt = false ∧ FrontOpen latched 5 ∧ latched.csd.latch ≠ [] :=
  ⟨front_u1, rfl, by decide +kernel, rfl, rfl, by decide +kernel, by decide +kernel, by decide +kernel, rfl,
    ⟨front_open _ _ running_u1 (by decide +kernel) rfl rfl rfl, rfl, rfl⟩,
    ⟨front_open _ _ running_u1 (by decide +kernel) rfl rfl rfl, by decide +kernel⟩,
    front_open _ _ running_u1 (by decide +kernel) rfl rfl rfl, front_open _ _ running_u1 (by decide +kernel) rfl rfl rfl,
    rfl, by decide +kernel, front_open _ _ running_u1 (by decide +kernel) rfl rfl rfl, by simp⟩

theorem preempt_record : u1.tbs.stepRecord (parseFrame stepPreempt) = some p20 := by decide +kernel

theorem witness_PreemptiveTakesEndTheStep :
    let s (st : EngineState) := { actuating .driving with ste.st := st }
    let absent := frameOf 1 63 101 [22, 1, 0x08, 0x5C, 0]
    (frameCheckOk .even absent = true ∧ (parseFrame absent).isStep = true ∧ (parseFrame absent).preempt = true ∧
      u1.tbs.stepRecord (parseFrame absent) = none) ∧
    (FrontOpen (chainEnd (s .settling)) 600 ∧ FrontOpen (echoWaits (chainEnd (s .settling))) 600 ∧
      (echoWaits (chainEnd (s .settling))).rtq.echo ≠ none) ∧
    ∀ st ∈ [EngineState.muting, .actuating, .settling],
      FrontOpen (s st) 600 ∧ frameCheckOk (s st).lnk.sense stepPreempt = true ∧ (parseFrame stepPreempt).isStep = true ∧
      (parseFrame stepPreempt).preempt = true ∧ (s st).mdc.mode = .run ∧ (s st).lnk.transparent = false ∧
      (s st).rtq.report = none ∧ (s st).csd.latch = [] ∧ (s st).ste.ident = some identA ∧ identA.quiet = false ∧
      (s st).tbs.stepRecord (parseFrame stepPreempt) = some p20 := by
  intro s absent
  refine ⟨by decide +kernel, ⟨front_open _ _ running_u1 (by decide +kernel) rfl rfl rfl,
    front_open _ _ running_u1 (by decide +kernel) rfl rfl rfl, by simp [echoWaits, congested]⟩, ?_⟩
  intro st h
  refine ⟨front_open _ _ running_u1 ?_ rfl rfl rfl, preempt_ok, by decide +kernel, by decide +kernel, rfl, rfl, rfl, rfl,
    rfl, rfl, preempt_record⟩
  revert st
  decide +kernel

/-- A step in CHECKING at each line of the verdict's table. -/
theorem witness_SpanVerdictDecides :
    let verdict (s : State) :=
      match s.rev.evaluation with
      | some v => runWalk s.tbs v.sets Config.walkFuel v.walk
      | none => .pass
    let walk (w : WalkSet) := { checking with rev.evaluation := some { sets := three [0] [0] [2] [0], since := 0, walk := w } }
    let none_ : Targets := Vector.replicate 48 none
    let landed := { checking with ste.changing := none_ }
    let loud := withInput .rfPresentIn 1 true checking
    (checking.running ∧ checking.headQuiet ∧ checking.mdc.mode = .run ∧ checking.ste.st = .checking ∧
      checking.ste.snapshot = some p20 ∧ verdict checking = .pass) ∧
    (∃ x, verdict (walk { walkFrom 1 with branches := [], reached := [.terminal 6] }) = .interlock x) ∧
    (∃ x, verdict (walk { walkFrom 1 with count := 513 }) = .spanLimit x) ∧
    (verdict (walk { walkFrom 7 with count := 512, branches := [] }) = .pass) ∧
    ({ checking with csd.latch := [{ elem := 0, target := 2, state := .owed }] } : State).csd.latch ≠ [] ∧
    ((∀ i : Elem, landed.ste.changing[i] = none) ∧ landed.csd.anyInFlight = false ∧ p20.dwell ≠ 0) ∧
    ({ landed with csd.pulses := (actuating .driving).csd.pulses } : State).csd.anyInFlight = true ∧
    ((lowSupply checking).csd.supply = .low ∧ ¬∀ i : Elem, (lowSupply checking).ste.changing[i] = none) ∧
    (checking.csd.supply = .good ∧ checking.rfPresent = false) ∧
    (loud.rfPresent = true ∧ loud.tbs.runtime.muteGrace ≠ 0) ∧
    ({ loud with tbs.runtime.muteGrace := 0 } : State).tbs.runtime.muteGrace = 0 ∧
    (p21.hold = false ∧ checking.lnk.b.link = .up ∧ checking.fwq.queue = [entryOf stepA .held] ∧
      (entryOf stepA .held).status = .held) ∧
    (p20.hold = true ∧ { p20 with dwell := 0 }.dwell = 0 ∧ verdict landed = .pass) := by
  refine ⟨⟨running_u1, ?_, rfl, rfl, rfl, by decide +kernel⟩, ⟨1, by decide +kernel⟩, ⟨1, by decide +kernel⟩,
    by decide +kernel, by simp, by decide +kernel, by decide +kernel, by decide +kernel, by decide +kernel,
    by decide +kernel, rfl, ⟨rfl, rfl, rfl, rfl⟩, rfl, rfl, by decide +kernel⟩
  unfold State.headQuiet
  decide +kernel

theorem links_u1 : u1Tables.failingLink = none := by decide +kernel

theorem sound_u1 : LinksSound u1Tables := by
  have h : ∀ i : Fin 160, u1Tables.links[i].all
      (fun l => decide (l.a ≠ l.b ∧ ∀ e : Elem, l.a ≠ .throw e 0 ∧ l.b ≠ .throw e 0)) = true := by decide +kernel
  intro i l hl
  simpa [hl] using h i

theorem witness_SpanPassExcludesForbiddenRoutes :
    u1Tables.failingLink = none ∧ LinksSound u1Tables ∧
      (∀ (e : Elem) (p : Pos), u1.csd.walkPosition e = some p → p ∈ (safeSets p0)[e]) ∧
      spanVerdict u1Tables (safeSets p0) = .pass :=
  ⟨links_u1, sound_u1, by decide +kernel, by decide +kernel⟩

theorem witness_TimerExpiriesEndTheStep :
    let m := { checking with ste.st := .muting, ste.grace := some 100500, rev.evaluation := none }
    let d := { checking with ste.st := .settling, ste.dwell := some 35500, rev.evaluation := none }
    (m.running ∧ m.headQuiet ∧ m.ste.st = .muting ∧ m.ste.grace = some 100500 ∧ m.calm) ∧
      d.running ∧ d.headQuiet ∧ d.ste.st = .settling ∧ d.ste.dwell = some 35500 ∧ d.calm := by
  have h : checking.headQuiet := by
    unfold State.headQuiet
    decide +kernel
  exact ⟨⟨running_u1, h, rfl, rfl, And.intro rfl (by decide +kernel)⟩, running_u1, h, rfl, rfl,
    And.intro rfl (by decide +kernel)⟩

theorem witness_RouteResultsAreReported :
    let s := { u1 with
      ste.st := .reportWait
      ste.ident := some identA
      ste.outcome := some .settled
      rev.route := some { since := 35500, results := [] } }
    s.running ∧ s.frontStill ∧ s.rev.route = some { since := 35500, results := [] } ∧ s.ste.ident = some identA ∧
      s.ste.outcome = some .settled ∧ StepOutcome.settled ≠ .noPath ∧ s.calm :=
  ⟨running_u1, still_of_empty _ rfl, rfl, rfl, rfl, by decide, And.intro rfl (by decide +kernel)⟩

theorem witness_PulseEndFreesTheBank :
    let s := actuating .driving
    s.running ∧ s.frontStill ∧ s.csd.pulses[(0 : Elem)] = some (pulseA (.step 0) .driving) ∧
      (pulseA (.step 0) .driving).phase = .driving :=
  ⟨running_u1, still_of_empty _ rfl, by decide +kernel, rfl⟩

/-- A landing of each drive; of the recovery drive also with the drive ended, and with another entry still driving; the last landing
of the safe drive, with and without the redrive mark; the last one in flight under the hold of a SOFT_RESET. -/
theorem witness_LandingRecordsTheTarget :
    let s (d : Drive) (active : Bool) (l : List LatchEntry) :=
      { flying d .settleTime with csd.recoveryActive := active, csd.latch := l }
    let own : LatchEntry := { elem := 0, target := 2, state := .driving }
    let other : LatchEntry := { elem := 8, target := 1, state := .driving }
    let safe (redrive : Bool) := inMode (.safe .driving)
      { flying .safe .settleTime with mdc.outstanding := three none (some 2) none none, mdc.redrive := redrive }
    let hold := inMode .config
      { flying .safe .settleTime with
        rtq.responseHeld := true
        rtq.response := some (parseFrame foreign)
        mga := .serving request }
    (∀ d ∈ [Drive.step 0, .safe, .recovery], (s d true [own]).running ∧ (s d true [own]).frontStill ∧
      (s d true [own]).csd.pulses[(0 : Elem)] = some (pulseA d .settleTime) ∧ (s d true [own]).ste.st ≠ .actuating) ∧
      ((s .recovery false []).csd.recoveryActive = false ∧ (s .recovery true [own, other]).csd.recoveryActive = true) ∧
      (∀ redrive : Bool, (safe redrive).running ∧ (safe redrive).frontStill ∧ (safe redrive).mdc.mode = .safe .driving ∧
        (safe redrive).csd.latch = [] ∧ (safe redrive).mdc.redrive = redrive) ∧
      ((∀ j : Elem, j ≠ 0 → (safe true).csd.pulses[j] = none) ∧ (∀ j : Elem, (safe true).csd.pending[j] = none) ∧
        ∀ j : Elem, (safe true).mdc.outstanding[j] = none ∨ (j = 0 ∧ (pulseA .safe .settleTime).drive = .safe)) ∧
      hold.running ∧ hold.headQuiet ∧ hold.mdc.mode = .config ∧ hold.rtq.responseHeld = true ∧
        hold.mga = .serving request ∧ hold.rtq.response = some (parseFrame foreign) := by
  intro s own other safe hold
  refine ⟨?_, ⟨rfl, rfl⟩, fun r => ⟨running_u1, still_of_empty _ rfl, rfl, rfl, rfl⟩, by decide +kernel, running_u1,
    quiet_of_empty _ rfl, rfl, rfl, rfl, rfl⟩
  intro d h
  refine ⟨running_u1, still_of_empty _ rfl, ?_, idle_u1.1⟩
  revert d
  decide +kernel

/-- The last landing of the step; one that leaves elements of it outstanding; and the last landing in flight, of another drive's
pulse, with an empty changing set. -/
theorem witness_LastLandingSettlesTheStep :
    let s := actuating .settleTime
    let waiting := { s with ste.changing := changingA }
    let other : State := { actuating .settleTime with ste.changing := Targets.none, ste.serial := 9 }
    let landed (s : State) (k : Pulse) :=
      if k.drive = .step s.ste.serial ∧ s.ste.changing[(0 : Elem)] ≠ none then s.ste.landed.set 0 true else s.ste.landed
    let done (s : State) (k : Pulse) := (∀ j : Elem, s.ste.changing[j] ≠ none → (landed s k)[j] = true) ∧
      ∀ j : Elem, j ≠ 0 → s.csd.pulses[j] = none
    let k := pulseA (.step 0) .settleTime
    (∀ x ∈ [s, waiting, other], x.running ∧ x.headQuiet ∧ x.ste.st = .actuating ∧ x.ste.snapshot = some p20 ∧
      x.csd.pulses[(0 : Elem)] = some k) ∧ k.phase = .settleTime ∧ k.drive = .step s.ste.serial ∧
      k.drive ≠ .step other.ste.serial ∧ done s k ∧ done other k ∧ ¬done waiting k ∧ p20.dwell ≠ 0 := by
  refine ⟨?_, rfl, rfl, by decide +kernel, by decide +kernel, by decide +kernel, by decide +kernel, by decide⟩
  intro x h
  simp only [List.mem_cons, List.not_mem_nil, or_false] at h
  rcases h with rfl | rfl | rfl <;> exact ⟨running_u1, quiet_of_empty _ rfl, rfl, rfl, rfl⟩

theorem witness_RecoveryAndLockoutMakeAPass :
    let s := inMode .config
      { u1 with
        csd.pending := three none (some 1) none none
        csd.drive := some (.step 0)
        csd.lastLaunch := (Vector.replicate 48 none).set 0 (some 0)
        csd.recoveryUntil := (Vector.replicate 6 none).set 1 (some 12500) }
    s.running ∧ s.frontStill ∧ s.csd.recoveryUntil[(1 : Bank)] = some 12500 ∧ restartEvaluation s = none ∧
      verifyAction (s.advance 12500) = none ∧ s.csd.pending[(0 : Elem)] = some 1 ∧ s.tbs.classOf 0 = some c1 ∧
      s.csd.lastLaunch[(0 : Elem)] = some 0 ∧ verifyAction (s.advance (0 + c1.lockout)) = none :=
  ⟨running_u1, still_of_empty _ rfl, by decide +kernel, by decide +kernel, by decide +kernel, by decide +kernel,
    by decide +kernel, by decide +kernel, by decide +kernel⟩

/-- In one pass E0 launches and E9, whose class does not fit the budget beside it, stays. -/
theorem witness_LaunchPassLeavesNoneEligible :
    let s := { u1 with
      tbs.core.budget := 700
      csd.pending := three none (some 2) none (some 4)
      csd.drive := some (.step 0) }
    s.csd.drive = some (.step 0) ∧ (launchPass s).csd.pending[(9 : Elem)] = some 4 ∧ s.tbs.classOf 9 = some c1 ∧
      (launchPass s).csd.pulses[(0 : Elem)] ≠ none ∧ s.csd.pulses[(0 : Elem)] = none :=
  ⟨rfl, by decide +kernel, by decide +kernel, by decide +kernel, by decide +kernel⟩

/-- Sections 4.6 and 4.7: launches with RF_PRESENT asserted, and one that brings a wear count to its limit, in a step and outside one. -/
theorem witness_LaunchPassLeavesNoneEligible_flags :
    let s (limit : Nat) (st : EngineState) := withInput .rfPresentIn 1 true { u1 with
      tbs.classes := u1Tables.classes.set 1 (some { c1 with wearLimit := limit })
      tbs.wear := three 6 6 6 6
      csd.pending := three none (some 2) (some 1) none
      csd.drive := some (.step 0)
      ste.st := st }
    let out (limit : Nat) (st : EngineState) := launchPass (s limit st)
    (s 7 .actuating).rfPresent = true ∧ (s 7 .actuating).ste.holdsStep = true ∧ (s 7 .idle).ste.holdsStep = false ∧
      (allElems.filter (fun i => (out 7 .actuating).csd.pulses[i] ≠ (s 7 .actuating).csd.pulses[i])) = [0, 8] ∧
      (out 7 .actuating).evu.hotCount = 2 ∧ (out 7 .actuating).evu.latched = 0x00C0 ∧ (out 7 .actuating).ste.hot = true ∧
      (out 7 .actuating).ste.wearFlag = true ∧ (out 7 .idle).ste.hot = false ∧ (out 7 .idle).ste.wearFlag = false ∧
      (out 8 .actuating).evu.latched = 0x0040 ∧ (out 8 .actuating).ste.wearFlag = false := by decide +kernel

/-- A step in CHECKING, in RUN with nothing pending, whose snapshot holds E0 at 0 alone: a verify of BK0 that finds E0 at 1, and a
loss of the supply with E0 in flight, outdate it; a landing of E0 at 0 does not. -/
theorem witness_EvaluationFollows :
    let flight := { checking with csd.pulses := (Vector.replicate 48 none).set 0 (some { pulseA .safe .settleTime with target := 0 }) }
    let verify := { checking with vfu.activity := .verifying 0 .ordinary 1500 }
    (checking.headQuiet ∧ checking.mdc.mode = .run ∧ checking.ste.st = .checking ∧ checking.rev.evaluation ≠ none ∧
      ∀ j : Elem, checking.csd.pending[j] = none) ∧
      after (exec (.verifyComplete (e0At 1)) verify) (fun t => t.rev.evaluation.any (fun v => v.since == 1500)) = true ∧
      after (exec (.verifyComplete (e0At 0)) verify) (fun t => t.rev.evaluation == verify.rev.evaluation) = true ∧
      after (exec (.vcoilLow 9) flight) (fun t => t.rev.evaluation.any (fun v => v.since == 9)) = true ∧
      after (exec (.pulseLand 0) flight) (fun t => t.rev.evaluation == flight.rev.evaluation) = true := by
  refine ⟨⟨?_, rfl, rfl, by decide +kernel, by decide +kernel⟩, by decide +kernel, by decide +kernel, by decide +kernel,
    by decide +kernel⟩
  unfold State.headQuiet
  decide +kernel

theorem witness_SupplyLossCutsEveryPulse :
    let s := actuating .driving
    s.running ∧ s.headQuiet ∧ s.csd.supply = .good ∧ (∀ b, s.csd.oneDriver b) ∧
      s.csd.pulses[(0 : Elem)] = some (pulseA (.step 0) .driving) ∧ s.mdc.mode ≠ .safe .driving ∧ s.ste.st = .actuating ∧
      (inMode (.safe .driving) (flying .safe .driving)).calm ∧
      let hold := inMode .config
        { flying .safe .driving with rtq.responseHeld := true, rtq.response := some (parseFrame foreign), mga := .serving request }
      hold.running ∧ hold.headQuiet ∧ hold.csd.supply = .good ∧ hold.mdc.mode = .config ∧ hold.rtq.responseHeld = true ∧
        hold.mga = .serving request ∧ hold.rtq.response = some (parseFrame foreign) := by
  refine ⟨running_u1, quiet_of_empty _ rfl, rfl, ?_, by decide +kernel, by decide +kernel, rfl, And.intro rfl (by decide +kernel),
    running_u1, quiet_of_empty _ rfl, rfl, rfl, rfl, rfl, rfl⟩
  unfold Csd.oneDriver
  decide +kernel

theorem witness_SupplyReturnActsByMode :
    let owed : LatchEntry := { elem := 0, target := 2, state := .owed }
    let s (m : Mode) := { lowSupply (inMode m u1) with csd.latch := [owed], csd.recorded := three (some 0) none (some 2) (some 0) }
    (∀ m : Mode, (s m).running ∧ (s m).frontStill ∧ (s m).csd.supply = .low ∧ (s m).mdc.mode = m ∧
      ((s m).csd.latch.map (·.elem)).Nodup ∧ owed ∈ (s m).csd.latch ∧ owed.state = .owed) ∧
      ((s .run).tbs.classOf 0).isSome ∧ (s (.safe .held)).tbs.core.safeIndex = some 0 ∧
      (s (.safe .held)).tbs.paths[0] = some p0 ∧ (s (.safe .held)).csd.destination 0 ≠ some p0.targets[0] := by
  refine ⟨?_, by decide +kernel, rfl, by decide +kernel, by decide +kernel⟩
  intro m
  exact ⟨running_u1, still_of_empty _ rfl, rfl, rfl, List.nodup_singleton _, List.mem_singleton.mpr rfl, rfl⟩

/-- E0 sensed at its position, away from it, and at no one position (two contacts closed). -/
theorem witness_VerifyCorrectsPositions :
    let s := verifying .ordinary
    let shut (x : List (BitVec 7)) := c1.validPositions.filter (fun p => (x.getD 0 0).getLsbD p.val)
    (s.running ∧ s.headQuiet ∧ s.vfu.activity = .verifying 0 .ordinary 1500 ∧ s.tbs.classOf 0 = some c1 ∧ c1.sense = true ∧
      s.csd.recorded[(0 : Elem)] = some 0) ∧
      shut (e0At 0) = [0] ∧ shut (e0At 1) = [1] ∧ shut [3] = [0, 1] ∧ s.tbs.runtime.tripMask.getLsbD 0 = true :=
  ⟨⟨running_u1, quiet_of_empty _ rfl, rfl, by decide +kernel, rfl, by decide +kernel⟩, by decide +kernel,
    by decide +kernel, by decide +kernel, by decide +kernel⟩

/-- A verify of each kind; one that fills the round; the last one of VERIFY_ALL and of the ENTRY sequence. -/
theorem witness_VerifyPaysDebt :
    let last := { verifying .recovery with vfu.round := 0x3E }
    let all := { verifying .command with vfu.inHand := some (.all 5), mga := .serving request }
    (∀ k : VerifyKind, (verifying k).running ∧ (verifying k).headQuiet ∧
      (verifying k).vfu.activity = .verifying 0 k 1500 ∧ (verifying k).vfu.inHand = none) ∧
      (¬∀ c : Bank, c = 0 ∨ (verifying .recovery).vfu.round.getLsbD c.val = true) ∧
      (last.running ∧ last.headQuiet ∧ ∀ c : Bank, c = 0 ∨ last.vfu.round.getLsbD c.val = true) ∧
      (all.running ∧ all.headQuiet ∧ all.vfu.inHand = some (.all 5)) ∧
      (entering 5 .safe).running ∧ (entering 5 .safe).headQuiet ∧ (entering 5 .safe).vfu.inHand = some (.entry 5) ∧
      bankMismatched (entering 5 .safe) 0 (e0At 0) = false :=
  ⟨fun _ => ⟨running_u1, quiet_of_empty _ rfl, rfl, rfl⟩, by decide +kernel,
    ⟨running_u1, quiet_of_empty _ rfl, by decide +kernel⟩, ⟨running_u1, quiet_of_empty _ rfl, rfl⟩, running_u1,
    quiet_of_empty _ rfl, rfl, by decide +kernel⟩

/-- Each demand in its turn: a command for a bank that is not idle, a recovery request, debt 5 with BK0 in the round, debt 1 and the
idle mark with BK0 not idle; and both timers. -/
theorem witness_VerifyChoiceFollowsThePriorities :
    let choice (s : State) := (verifyAction s).map (·.vfu.activity)
    let busy := flying .safe .driving
    let slot := { u1 with vfu.slot := some 60000000 }
    let lead := { u1 with vfu.idleLead := some 5000000 }
    choice { busy with vfu.inHand := some (.bank 0) } = some (.claimed 0 .command) ∧
      choice { u1 with vfu.inHand := some (.all 4), vfu.requests := [2] } = some (.verifying 4 .command 1500) ∧
      choice { u1 with vfu.requests := [2, 0], vfu.debt := 5 } = some (.verifying 2 .recovery 1500) ∧
      choice { busy with vfu.round := 1, vfu.debt := 5 } = some (.verifying 1 .debtForced 2000) ∧
      choice { busy with vfu.debt := 5 } = some (.claimed 0 .debtForced) ∧
      choice { busy with vfu.debt := 1 } = some (.verifying 1 .ordinary 2000) ∧
      choice { busy with vfu.idleMark := true } = some (.verifying 1 .pullIn 2000) ∧
      choice { u1 with vfu.debt := -3, vfu.idleMark := true } = none ∧
      (slot.running ∧ slot.frontStill ∧ slot.calm ∧ slot.vfu.slot = some 60000000 ∧ slot.vfu.activity = .free ∧
        slot.mdc.mode = .run ∧ slot.vfu.debt = 0 ∧ slot.ste.st = .idle ∧ slot.csd.bankIdle 0 (max slot.now 60000000) = true) ∧
      (lead.running ∧ lead.frontStill ∧ lead.calm ∧ lead.vfu.idleLead = some 5000000 ∧ lead.vfu.activity = .free ∧
        lead.mdc.mode = .run ∧ lead.vfu.debt = 0 ∧ lead.csd.bankIdle 0 (max lead.now 5000000) = true) ∧
      ∀ c : Bank, ¬c < 0 :=
  ⟨by decide +kernel, by decide +kernel, by decide +kernel, by decide +kernel, by decide +kernel, by decide +kernel,
    by decide +kernel, by decide +kernel,
    ⟨running_u1, still_of_empty _ rfl, calm_u1, rfl, rfl, rfl, rfl, rfl, by decide +kernel⟩,
    ⟨running_u1, still_of_empty _ rfl, calm_u1, rfl, rfl, rfl, rfl, by decide +kernel⟩, by decide +kernel⟩

theorem witness_VerifyCommandsAreAnswered :
    let s (h : InHand) := { verifying .command with mga := .serving request, vfu.inHand := some h }
    ∀ h ∈ [InHand.bank 0, .all 0, .all 4, .all 5], (s h).running ∧ (s h).headQuiet ∧
      (s h).vfu.activity = .verifying 0 .command 1500 ∧ (s h).mga = .serving request ∧ (s h).rtq.responseHeld = false ∧
      (s h).vfu.inHand = some h ∧ ∀ o q, (s h).mdc.mode ≠ .entry o q := by
  intro s h _
  refine ⟨running_u1, quiet_of_empty _ rfl, rfl, rfl, rfl, rfl, ?_⟩
  intro o q e
  cases e

theorem witness_EntrySequenceDecidesTheMode :
    (∀ b ∈ [(0 : Bank), 4, 5], ∀ o : EntryOrigin, (entering b o).running ∧ (entering b o).headQuiet ∧
      (entering b o).vfu.activity = .verifying 0 .command 1500 ∧ (entering b o).mdc.mode = .entry o .enterRun ∧
      (entering b o).mga = .serving request ∧ (entering b o).rtq.responseHeld = false ∧
      (entering b o).vfu.inHand = some (.entry b) ∧ (entering b o).ste.st = .idle) ∧
      bankMismatched (entering 5 .config) 0 (e0At 0) = false ∧ bankMismatched (entering 5 .safe) 0 (e0At 1) = true ∧
      (entering 5 .config).tbs.runtime.idleLead ≠ 0 := by
  refine ⟨?_, by decide +kernel, by decide +kernel, by decide +kernel⟩
  intro b _ o
  exact ⟨running_u1, quiet_of_empty _ rfl, rfl, rfl, rfl, rfl, rfl, rfl⟩

theorem witness_VerifyTimersExpire :
    let s (d : Int) := { u1 with vfu.slot := some 60000000, vfu.debt := d, vfu.idleLead := some 5000000 }
    ∀ d ∈ [(-3 : Int), 4, 5], (s d).running ∧ (s d).frontStill ∧ (s d).vfu.slot = some 60000000 ∧ DebtInRange (s d) ∧
      (s d).vfu.idleLead = some 5000000 ∧ (s d).ste.st = .idle ∧ (s d).calm := by
  intro s d h
  refine ⟨running_u1, still_of_empty _ rfl, rfl, ?_, rfl, rfl, calm_u1⟩
  revert d
  unfold DebtInRange
  decide +kernel

/-- Section 6.2: tables that pass, and tables for each check that fail it first, at a number where another could stand. -/
theorem witness_ValidTablesMeetEveryCheck :
    let t := u1Tables
    let linked (a : Node) := { t with links := t.links.set 159 (link a (.terminal 9)) }
    validate t = none ∧ validate { t with elements := t.elements.set 47 .absent } = some (1, 47) ∧
      validate { t with elements := t.elements.set 47 (.fitted 7) } = some (2, 47) ∧
      validate { t with core.budget := 350 } = some (3, 1) ∧ validate (linked (.common 1)) = some (4, 159) ∧
      validate (linked (.throw 8 3)) = some (5, 159) ∧ validate (linked (.source 0)) = some (6, 159) ∧
      validate { t with core.safeIndex := none } = some (7, 0) ∧ validate { t with core.safeIndex := some 255 } = some (8, 255) ∧
      validate { t with paths := t.paths.set 0 (some { p0 with mask := 31 }) } = some (9, 0) ∧
      validate { t with paths := t.paths.set 255 (some { p0 with targets := three 0 0 3 0 }) } = some (10, 255) ∧
      validate { t with
        interlock := t.interlock.set 2 (some (0, 0))
        paths := t.paths.set 0 (some { p0 with targets := three 0 1 2 0 }) } = some (11, 0) := by decide +kernel

theorem witness_ValidationDecidesEntry :
    let s (t : Tbs) := inMode .config { u1 with tbs := t, mdc.validating := some 0, mga := .serving request }
    (∀ t : Tbs, (s t).running ∧ (s t).headQuiet ∧ (s t).mdc.validating = some 0 ∧ (s t).mga = .serving request ∧
      (s t).rtq.responseHeld = false ∧ (s t).mdc.mode = .config ∧ (s t).ste.st ≠ .reportWait) ∧
      validate State.reset.tbs = some (1, 0) ∧ validate u1Tables = none := by
  refine ⟨?_, by decide +kernel, test_valid_tables⟩
  intro t
  exact ⟨running_u1, quiet_of_empty _ rfl, rfl, rfl, rfl, rfl, idle_u1.2⟩

theorem witness_TripsActByMode :
    let s (c : TripCause) (t : State) := { t with mdc.trips := [c] }
    (∀ c : TripCause, ((s c u1).running ∧ (s c u1).headQuiet ∧ (s c u1).mdc.trips = c :: [] ∧ (s c u1).mdc.mode = .run) ∧
      ∀ o : EntryOrigin, (s c (entering 2 o)).running ∧ (s c (entering 2 o)).headQuiet ∧
        (s c (entering 2 o)).mdc.mode = .entry o .enterRun ∧ (s c (entering 2 o)).mga = .serving request ∧
        (s c (entering 2 o)).rtq.responseHeld = false ∧ (s c (entering 2 o)).vfu.inHand = some (.entry 2)) ∧
      (s .door (inMode (.safe .held) u1)).mdc.mode.isSafe = true := by
  refine ⟨?_, rfl⟩
  intro c
  refine ⟨⟨running_u1, quiet_of_empty _ rfl, rfl, rfl⟩, ?_⟩
  intro o
  exact ⟨running_u1, quiet_of_empty _ rfl, rfl, rfl, rfl, rfl⟩

/-- A request reaches the agent of a state with an empty Forward Queue. -/
theorem reaches (s : State) (h : ReqHead) (r : s.running) (c : react (s.advance h.time) = none) (l : s.lnk.a.link = .up)
    (a : s.lnk.transparent = false) (i : s.mga = .idle) (u : s.rtq.responseHeld = false) (q : s.fwq.queue = [])
    (d : h.dest = s.lnk.addrByte ∨ h.dest = broadcast) : Reaches s h := ⟨r, c, l, a, i, u, q, d⟩

theorem own_u1 : toNode.dest = u1.lnk.addrByte := by decide +kernel

theorem reaches_u1 : Reaches u1 toNode :=
  reaches _ _ running_u1 (by decide +kernel) rfl (by decide +kernel) rfl rfl rfl (Or.inl own_u1)

theorem reaches_u1_broadcast : Reaches u1 toAll :=
  reaches _ _ running_u1 (by decide +kernel) rfl (by decide +kernel) rfl rfl rfl (Or.inr rfl)

theorem reaches_held : Reaches (inMode (.safe .held) u1) toNode :=
  reaches _ _ running_u1 (by decide +kernel) rfl reaches_u1.addressed rfl rfl rfl (Or.inl own_u1)

theorem reaches_config : Reaches (inMode .config u1) toNode :=
  reaches _ _ running_u1 (by decide +kernel) rfl reaches_u1.addressed rfl rfl rfl (Or.inl own_u1)

theorem witness_EnterRunAndResumeBegin :
    (Reaches u1 toNode ∧ u1.mdc.mode ≠ .config ∧ u1.mdc.mode ≠ .safe .held) ∧
      (Reaches (inMode .config u1) toNode ∧ (inMode .config u1).csd.supply = .good ∧ (inMode .config u1).doorIn = false) ∧
      (Reaches (lowSupply (inMode .config u1)) toNode ∧ (lowSupply u1).csd.supply = .low ∧
        (lowSupply u1).tbs.runtime.tripMask.getLsbD 6 = true) ∧
      Reaches (inMode (.safe .held) u1) toNode ∧ (inMode (.safe .held) u1).mdc.mode = .safe .held ∧
      (inMode (.safe .held) u1).csd.supply = .good ∧ (inMode (.safe .held) u1).doorIn = false :=
  ⟨⟨reaches_u1, by decide +kernel, by decide +kernel⟩, ⟨reaches_config, rfl, by decide +kernel⟩,
    ⟨reaches _ _ running_u1 (by decide +kernel) rfl reaches_u1.addressed rfl rfl rfl (Or.inl own_u1), rfl, by decide +kernel⟩,
    reaches_held, rfl, rfl, by decide +kernel⟩

theorem reaches_alerted : Reaches (alerted u1) toNode :=
  reaches _ _ running_u1 (by decide +kernel) rfl reaches_u1.addressed rfl rfl rfl (Or.inl own_u1)

theorem witness_EnterConfigLeavesRunAndSafe :
    (Reaches u1 toNode ∧ u1.mdc.mode = .run ∧ u1.ste.st = .idle) ∧
      (Reaches (alerted u1) toNode ∧ (alerted u1).mdc.mode = .run ∧ (alerted u1).rtq.alert.isSome = true) ∧
      (Reaches (inMode (.safe .held) u1) toNode ∧ (inMode (.safe .held) u1).mdc.mode = .safe .held) ∧
      Reaches (inMode .config u1) toNode ∧
      ¬(((inMode .config u1).mdc.mode = .run ∧ u1.ste.st = .idle) ∨ (inMode .config u1).mdc.mode = .safe .held) :=
  ⟨⟨reaches_u1, rfl, rfl⟩, ⟨reaches_alerted, rfl, rfl⟩, ⟨reaches_held, rfl⟩, reaches_config, by decide +kernel⟩

theorem witness_EnterSafeActsByMode :
    (Reaches u1 toNode ∧ u1.mdc.mode = .run) ∧
      (Reaches (inMode (.safe .held) u1) toNode ∧ (inMode (.safe .held) u1).mdc.mode.isSafe = true) ∧
      Reaches (inMode .config u1) toNode ∧ (inMode .config u1).mdc.mode = .config :=
  ⟨⟨reaches_u1, rfl⟩, ⟨reaches_held, rfl⟩, reaches_config, rfl⟩

theorem witness_VerifyCommandsAreTakenInHand :
    let s (r : BitVec 6) (d : Int) := { u1 with vfu.round := r, vfu.debt := d }
    (∀ x ∈ [(0, 0), (0x20, 0), (0, -3)], Reaches (s x.1 x.2) toNode) ∧ Reaches u1 toAll ∧
      6 ≤ (6 : Byte).toNat ∧ (5 : Byte).toNat = (5 : Bank).val ∧ (s 0x20 0).vfu.round.getLsbD 5 = true ∧
      (s 0 (-3)).vfu.round.getLsbD 5 = false := by
  refine ⟨?_, reaches_u1_broadcast, by decide +kernel, by decide +kernel, by decide +kernel, by decide +kernel⟩
  intro x h
  refine reaches _ _ running_u1 ?_ rfl reaches_u1.addressed rfl rfl rfl (Or.inl own_u1)
  revert x
  decide +kernel

theorem witness_EventsAndCountersAreCleared :
    (Reaches u1 toNode ∧ toNode.dest ≠ broadcast) ∧ Reaches u1 toAll ∧
      Reaches (alerted u1) toNode ∧ (alerted u1).rtq.alert.isSome = true ∧
      after (exec (.readClearEvents toNode 0x0040) (alerted u1)) (fun t => t.rtq.alert.any (fun a =>
        a.flags == 0xFFBF && a.raised == 0xFFFF && a.tag == 1)) = true :=
  ⟨⟨reaches_u1, by decide +kernel⟩, reaches_u1_broadcast, reaches_alerted, rfl, by decide +kernel⟩

theorem witness_SetMarkerReplacesTheMarker : Reaches u1 toNode ∧ Reaches u1 toAll := ⟨reaches_u1, reaches_u1_broadcast⟩

/-- Idle transmitters, a broadcast request, a frame in transmission on each port, a pulse in flight, a verify, a claim. -/
theorem witness_SoftResetResets :
    (Reaches u1 toNode ∧ toNode.dest ≠ broadcast ∧ u1.csd.anyInFlight = false ∧ u1.lnk.a.tx = none ∧ u1.lnk.b.tx = none) ∧
      (Reaches u1 toAll ∧ u1.lnk.b.link = .up ∧ u1.lnk.b.received = .go) ∧
      (Reaches (flying .safe .driving) toNode ∧ (flying .safe .driving).csd.anyInFlight = true) ∧
      (verifying .ordinary).vfu.activity = .verifying 0 .ordinary 1500 ∧ Reaches (verifying .ordinary) toNode ∧
      let claimed := { flying .safe .driving with vfu.activity := .claimed 0 .debtForced }
      let x (c : TxSource) : Tx := { source := c, bytes := foreign, flushed := false }
      let sending := { u1 with
        rtq.queue := [{ frame := parseFrame foreign, own := false }]
        lnk.a.tx := some (x .returnHead)
        fwq.slot := some (parseFrame safeAll)
        lnk.b.tx := some (x .urgentSlot) }
      (Reaches claimed toNode ∧ claimed.vfu.activity = .claimed 0 .debtForced) ∧
        Reaches sending toNode ∧ sending.lnk.a.tx = some (x .returnHead) ∧ sending.lnk.b.tx = some (x .urgentSlot) :=
  ⟨⟨reaches_u1, by decide +kernel, by decide +kernel, rfl, rfl⟩, ⟨reaches_u1_broadcast, rfl, rfl⟩,
    ⟨reaches _ _ running_u1 (by decide +kernel) rfl reaches_u1.addressed rfl rfl rfl (Or.inl own_u1), by decide +kernel⟩, rfl,
    reaches _ _ running_u1 (by decide +kernel) rfl reaches_u1.addressed rfl rfl rfl (Or.inl own_u1),
    ⟨reaches _ _ running_u1 (by decide +kernel) rfl reaches_u1.addressed rfl rfl rfl (Or.inl own_u1), rfl⟩,
    reaches _ _ running_u1 (by decide +kernel) rfl reaches_u1.addressed rfl rfl rfl (Or.inl own_u1), rfl, rfl⟩

/-- Section 8.6, "Refusal order": a request for each check, in RUN. -/
theorem witness_LoadsAreRefusedInOrder :
    Reaches u1 toNode ∧ tableOf 0x10 = none ∧ tableOf 0x0C = some .path ∧ (zeros 62).length ≠ TableId.path.recordBytes ∧
      tableOf 0x0E = some .status ∧ (zeros 28).length = TableId.status.recordBytes ∧ TableId.status.readOnly = true ∧
      (TableId.path.readOnly = false ∧ TableId.path.inRange 256 = false ∧ (zeros 64).length = TableId.path.recordBytes) ∧
      (TableId.path.inRange 0 = true ∧ u1.tbs.core.safeIndex = some 0 ∧ u1.mdc.mode ≠ .config) ∧
      tableOf 1 = some .cls ∧ TableId.cls.configOnly = true :=
  ⟨reaches_u1, by decide +kernel, by decide +kernel, by decide +kernel, by decide +kernel, by decide +kernel, rfl,
    by decide +kernel, by decide +kernel, by decide +kernel, rfl⟩

theorem witness_LoadsStoreTheRecord :
    let good := [0x13, 0x88, 0, 50, 0, 0, 0xFF]
    let bad := [0x13, 0x88, 0x02, 0, 0, 0, 0xFF]
    Reaches u1 toNode ∧ tableOf 0x0A = some .runtime ∧ TableId.runtime.readOnly = false ∧ TableId.runtime.inRange 0 = true ∧
      TableId.runtime.configOnly = false ∧ good.length = TableId.runtime.recordBytes ∧ bad.length = TableId.runtime.recordBytes ∧
      (∃ e, storeRecord .runtime 0 good (u1.advance 10) = .ok e) ∧
      storeRecord .runtime 0 bad (u1.advance 10) = .error (.field 1 0) ∧
      Reaches (inMode .config u1) toNode ∧ (inMode .config u1).mdc.mode = .config :=
  ⟨reaches_u1, by decide +kernel, rfl, rfl, rfl, rfl, rfl, ⟨_, rfl⟩, rfl, reaches_config, rfl⟩

theorem witness_ReplacedRecordsKeepValidPositions :
    ((flying .safe .driving).tbs.elements[(0 : Elem)] = .fitted 1 ∧ (flying .safe .driving).csd.pulses[(0 : Elem)] ≠ none) ∧
      (∃ t, storeClass 1 (encodeClass (some c1)) u1 = .ok t) ∧ ∃ t, storeElement 0 [0xFE] u1 = .ok t := by
  refine ⟨by decide +kernel, ?_, ?_⟩
  · have h : (storeClass 1 (encodeClass (some c1)) u1).isOk = true := by decide +kernel
    cases e : storeClass 1 (encodeClass (some c1)) u1 with
    | ok t => exact ⟨t, rfl⟩
    | error n => rw [e] at h; cases h
  · have h : (storeElement 0 [0xFE] u1).isOk = true := by decide +kernel
    cases e : storeElement 0 [0xFE] u1 with
    | ok t => exact ⟨t, rfl⟩
    | error n => rw [e] at h; cases h

theorem witness_FetchReturnsTheRecord :
    let shown : RouteEntry := { source := 0, outcome := .opened, hops := 0, lossFlag := .noRoute, loss := 0, sat := false }
    let s := { u1 with ste.routes := (Vector.replicate 8 none).set 0 (some shown) }
    Reaches s toNode ∧ tableOf 5 = some .core ∧ TableId.core.inRange 0 = true ∧ TableId.core.inRange 1 = false ∧
      tableOf 15 = some .route ∧ s.ste.routes[(0 : Fin 8)] = some shown ∧ s.ste.routes[(7 : Fin 8)] = none :=
  ⟨reaches _ _ running_u1 (by decide +kernel) rfl reaches_u1.addressed rfl rfl rfl (Or.inl own_u1),
    by decide +kernel, rfl, rfl, by decide +kernel, by decide +kernel, by decide +kernel⟩

theorem witness_LatchedFlagsRaiseAlerts :
    let masked := { u1 with tbs.runtime.alertMask := 0x0040 }
    (∀ f ∈ [Flag.hot, .door, .mismatch 0], u1.isLatched f = false ∧ u1.rtq.alert = none ∧
      u1.tbs.runtime.alertMask.getLsbD f.bit = false ∧ u1.lnk.transparent = false) ∧
      (masked.isLatched .hot = false ∧ masked.tbs.runtime.alertMask.getLsbD Flag.hot.bit = true) ∧
      (latchFlag .hot u1).isLatched .hot = true ∧ (latchFlag .hot u1).rtq.alert.isSome = true := by decide +kernel

theorem witness_LineChangesAreHandedOn :
    let door := withInput .doorIn 2 false u1
    let rf := withInput .rfPresentIn 1 false (actuating .driving)
    let loud := withInput .rfPresentIn 1 true { checking with ste.st := .muting, ste.grace := some 9, fwq.queue := [] }
    let x (s : State) (i : Fin 4) (l : Bool) : Axu := { s.axu with levels := s.axu.levels.set i l }
    (door.running ∧ door.frontStill ∧ door.calm ∧ door.doorIn = false ∧ (x door 2 true).presented .doorIn = true ∧
      door.tbs.runtime.tripMask.getLsbD 7 = true) ∧
      (rf.running ∧ rf.frontStill ∧ rf.calm ∧ rf.rfPresent = false ∧ (x rf 1 true).presented .rfPresentIn = true ∧
        rf.csd.anyInFlight = true ∧ rf.ste.holdsStep = true) ∧
      (loud.running ∧ loud.frontStill ∧ loud.calm ∧ loud.rfPresent = true ∧ (x loud 1 false).presented .rfPresentIn = false ∧
        loud.ste.st = .muting) ∧
      u1.rfPresent = (x u1 3 true).presented .rfPresentIn ∧ u1.ste.st ≠ .muting ∧ u1.csd.anyInFlight = false ∧
      (x u1 3 true).presented .doorIn = false :=
  ⟨⟨running_u1, still_of_empty _ rfl, And.intro rfl (by decide +kernel), by decide +kernel, by decide +kernel, by decide +kernel⟩,
    ⟨running_u1, still_of_empty _ rfl, And.intro rfl (by decide +kernel), by decide +kernel, by decide +kernel,
      by decide +kernel, by decide +kernel⟩,
    ⟨running_u1, still_of_empty _ rfl, And.intro rfl (by decide +kernel), by decide +kernel, by decide +kernel, rfl⟩,
    by decide +kernel⟩

/-- A line of each output function and polarity, asserted and not; an input line. -/
theorem witness_OutputLinesFollowTheState :
    let with_ (fn : LineFn) (p : Polarity) (s : State) := { s with axu.records := s.axu.records.set 3 { fn := fn, polarity := p } }
    (with_ .muteOut .activeHigh (flying .safe .settleTime)).lineDrive 3 = some true ∧
      (with_ .muteOut .activeLow (flying .safe .settleTime)).lineDrive 3 = some false ∧
      (with_ .settledOut .activeHigh u1).lineDrive 3 = some false ∧
      (with_ .settledOut .activeHigh { u1 with ste.settledMark := true }).lineDrive 3 = some true ∧
      (with_ .alertOut .activeLow { u1 with evu.latched := 0x8000 }).lineDrive 3 = some false ∧
      (with_ .doorIn .activeLow u1).lineDrive 3 = none := by decide +kernel

/-- A frequency at each end of the grid, at an inner point of it, and none; a route that ends open. -/
theorem witness_LossStaysBetweenTheSums :
    let r := trace lossTables { u1.csd with recorded := three (some 0) (some 2) (some 1) (some 4) } 0
    (lossResult lossTables r 700).flag = .belowGrid ∧ (lossResult lossTables r 6000).flag = .aboveGrid ∧
      (lossResult lossTables r 1800).flag = .inGrid ∧ (lossResult lossTables r 0).flag = .noFreq ∧
      (lossResult u1Tables r 1800).flag = .noGrid ∧ (lossResult lossTables (trace lossTables u1.csd 0) 700).flag = .noRoute := by
  decide +kernel

theorem witness_LossReadsOnlyItsRows :
    let c := { u1.csd with recorded := three (some 0) (some 2) (some 1) (some 4) }
    let r := trace lossTables c 0
    let t := { lossTables with eloss := lossTables.eloss.set 8 (Vector.replicate 6 (some (Vector.replicate 8 9))) }
    (t.grid = lossTables.grid ∧ (∀ l ∈ r.links, t.linkRow l = lossTables.linkRow l) ∧
      (∀ x ∈ r.elems, t.elementRow x.1 x.2 = lossTables.elementRow x.1 x.2) ∧ t.tcorr = lossTables.tcorr) ∧
      u1Tables.failingLink = none ∧ LinksSound u1Tables ∧ (trace u1Tables c 0).elems = [(0, 2), (9, 4)] :=
  ⟨by decide +kernel, links_u1, sound_u1, by decide +kernel⟩

theorem witness_StoredRecordsReadBack :
    (TableId.cls.inRange 7 = true ∧ (storeRecord .cls 7 (encodeClass (some c1)) u1).isOk = true) ∧
      (TableId.link.inRange 159 = true ∧
        (storeRecord .link 159 (encodeLink (link (.source 7) (.throw 47 6))) u1).isOk = true) ∧
      (TableId.eloss.inRange 12038 = true ∧ (storeRecord .eloss 12038 (zeros 17) u1).isOk = true) ∧
      (TableId.path.inRange 255 = true ∧ (storeRecord .path 255 (encodePath (some p20)) u1).isOk = true) ∧
      (TableId.wear.inRange 47 = true ∧ (storeRecord .wear 47 [0, 0xFF, 0xFF, 0xFF] u1).isOk = true) ∧
    (decodeClass (encodeClass (some c1))).isOk = true ∧ (decodeElement [7]).isOk = true ∧
      (decodeLink (encodeLink (link (.source 7) (.throw 47 6)))).isOk = true ∧ (decodeInterlock [1, 7, 31]).isOk = true ∧
      (decodeCore [0, 100, 0xFF, 0xFF, 0, 1]).isOk = true ∧ (decodeAux u1.axu.records 3 [5, 1]).isOk = true ∧
      (decodeRow (encodeRow (some (Vector.replicate 8 (-4000)))) 0 0).isOk = true ∧
      (decodeGrid (encodeGrid (some #v[1, 2, 3, 4, 5, 6, 7, 65535]))).isOk = true ∧
      (decodeRuntime [0xEA, 0x60, 0x01, 0xF4, 0xFF, 0xFF, 0]).isOk = true ∧ (decodeWear [0, 0xFF, 0xFF, 0xFF]).isOk = true ∧
      (decodePath u1Tables (encodePath (some p20))).isOk = true := by decide +kernel

/-- Section 12.1: a frame of the part's own passes the check; the severities 0 and 4 on an incoming 3. -/
theorem witness_OwnFramesPassTheCheck :
    let bs := frameOf 1 63 100 [20, 0, 0x08, 0x5C, 3]
    frameCheckOk .even bs = true ∧ (parseFrame bs).isStep = true ∧ 0 ≤ (parseFrame bs).status.toNat ∧
      ((parseFrame bs).stamp 0).wireBytes true .even = bs ∧ ((parseFrame bs).stamp 4).status = 4 := by decide +kernel

theorem witness_CoilSafetyIsKept :
    let s := { actuating .driving with pending := [.pulseEnd 0] }
    s.csd.charged = 400 ∧ s.csd.charged ≤ s.tbs.core.budget ∧
      after (step s) (fun t => t.csd.charged == 0) = true := by decide +kernel

/-- The bounds at their ends, and a step from there. -/
theorem witness_BoundsAreKept :
    let s := { u1 with
      pending := [.frameReceived 5 .a [1]]
      vfu.debt := -3
      lnk.a.checkErrors := 65535
      tbs.wear := Vector.replicate 48 16777215 }
    DebtInRange s ∧ (∀ e : Elem, s.tbs.wear[e] ≤ Config.wearCap) ∧ MarksAgree s ∧
      MarksAgree { s with lnk.sentFwd := .pause, fwq.queue := List.replicate 27 (entryOf foreign .waiting) } ∧
      after (step s) (fun t => t.lnk.a.checkErrors == 65535 && t.evu.latched == 0x0200) = true := by
  unfold DebtInRange MarksAgree
  refine ⟨?_, ?_, ?_, ?_, ?_⟩ <;> decide +kernel

/-! ## Witnesses: a step frame that waits at the head behind another step, and the claims of the Verify Unit -/

/-- A step frame without PREEMPT waits at the head. -/
def behind (s : State) : State := { s with fwq.queue := [entryOf stepA .waiting] }

/-- The engine in REPORT_WAIT with step A's identity. -/
def reporting (s : State) : State :=
  { s with ste.st := .reportWait, ste.ident := some identA, ste.snapshot := some p20, ste.outcome := some .settled }

/-- A report that waits for an occupied report outbox, which has no room in the Return Queue. -/
def reportWaits (s : State) : State :=
  congested { reporting s with ste.report := some (parseFrame safeAll), rtq.report := some (parseFrame foreign) }

/-- A latch list with E0's entry in a state. -/
def latched (st : LatchState) (s : State) : State := { s with csd.latch := [{ elem := 0, target := 2, state := st }] }

theorem waits_behind (s : State) (r : s.mdc.mode = .run) (a : s.lnk.transparent = false)
    (b : s.stepBarred (parseFrame stepA)) : (behind s).stepWaits :=
  ⟨r, a, entryOf stepA .waiting, [], rfl, rfl, by decide +kernel, b⟩

theorem blocked_behind (s : State) (r : s.mdc.mode = .run) (a : s.lnk.transparent = false)
    (b : s.stepBarred (parseFrame stepA)) : (behind s).frontBlocked :=
  Or.inr (Or.inr (waits_behind s r a b))

theorem barred_actuating (d : Phase) : (actuating d).stepBarred (parseFrame stepA) :=
  Or.inr (Or.inr (Or.inl ⟨rfl, Or.inl (by decide +kernel)⟩))

/-- The head waits behind a step in progress, for a report that cannot be placed, and for the latch list. -/
theorem witness_frontBlocked :
    (behind (actuating .driving)).frontBlocked ∧ (behind (reportWaits u1)).frontBlocked ∧
      (behind (reporting u1)).frontBlocked ∧ (behind (latched .driving u1)).frontBlocked ∧ (reportWaits u1).reportBarred := by
  have b : (reportWaits u1).reportBarred := ⟨by simp [reportWaits, congested], by decide +kernel⟩
  exact ⟨blocked_behind _ rfl rfl (barred_actuating _),
    blocked_behind _ rfl rfl (Or.inr (Or.inr (Or.inr ⟨rfl, Or.inr b⟩))),
    blocked_behind _ rfl rfl (Or.inr (Or.inr (Or.inr ⟨rfl, Or.inl rfl⟩))),
    blocked_behind _ rfl rfl (Or.inl (by simp [latched])), b⟩

theorem witness_ForwardQueueAdmits_behind :
    let s (n : Nat) := { actuating .driving with fwq.queue := entryOf stepA .waiting :: List.replicate n (entryOf foreign .waiting) }
    ∀ n ∈ [0, 30, 31], (s n).running ∧ (s n).lnk.a.link = .up ∧ (s n).frontBlocked ∧ (s n).frontStill ∧
      (s n).fwq.queue.length = n + 1 := by
  intro s n _
  have b : (s n).frontBlocked :=
    Or.inr (Or.inr ⟨rfl, rfl, _, _, rfl, rfl, by decide +kernel, barred_actuating .driving⟩)
  exact ⟨running_u1, rfl, b, Or.inr b, by simp [s]⟩

/-- Pulses, the lines, the supply and the verify timers beside a step frame that waits. -/
theorem witness_StepsWaitThroughEvents :
    let s (d : Phase) := behind (actuating d)
    (∀ d : Phase, (s d).running ∧ (s d).frontStill ∧ (s d).stepWaits ∧ (s d).csd.pulses[(0 : Elem)] = some (pulseA (.step 0) d)) ∧
      ((s .driving).csd.supply = .good ∧ (s .driving).csd.anyInFlight = true) ∧ p20.dwell ≠ 0 ∧
      (behind (lowSupply (latched .owed u1))).frontStill ∧
      after (exec (.pulseEnd 0) (s .driving)) (fun t => t.fwq.queue == [entryOf stepA .waiting]) = true ∧
      after (exec (.pulseLand 0) (s .settleTime)) (fun t => t.fwq.queue == [entryOf stepA .waiting] && t.ste.st == .settling) = true := by
  intro s
  refine ⟨?_, ⟨rfl, by decide +kernel⟩, by decide, Or.inr (blocked_behind _ rfl rfl (Or.inl (by simp [latched, lowSupply]))),
    by decide +kernel, by decide +kernel⟩
  intro d
  exact ⟨running_u1, Or.inr (blocked_behind _ rfl rfl (barred_actuating d)), waits_behind _ rfl rfl (barred_actuating d),
    by cases d <;> decide +kernel⟩

/-- A held head with a step frame behind it, Port B's link UP: the step's end leaves the frame behind it unexamined. -/
theorem witness_SpanVerdictDecides_front :
    let s := { checking with fwq.queue := [entryOf stepA .held, entryOf stepA .waiting] }
    let m := { s with ste.st := .muting, ste.grace := some 100500, rev.evaluation := none }
    (s.running ∧ s.headFirm ∧ s.frontFirm ∧ s.mdc.mode = .run ∧ s.ste.st = .checking ∧ s.ste.snapshot = some p20) ∧
      m.running ∧ m.frontFirm ∧ m.ste.st = .muting ∧ m.ste.grace = some 100500 := by
  have h (s : State) (l : s.lnk.b.link = .up) (q : s.fwq.queue = [entryOf stepA .held, entryOf stepA .waiting]) : s.headFirm :=
    Or.inr ⟨l, _, _, q, by simp [entryOf]⟩
  exact ⟨⟨running_u1, h _ rfl rfl, Or.inl (h _ rfl rfl), rfl, rfl, rfl⟩, running_u1, Or.inl (h _ rfl rfl), rfl, rfl⟩

/-- The verify of each kind with a step frame that waits behind a step. -/
theorem witness_VerifyPaysDebt_front :
    let s (k : VerifyKind) := behind { actuating .driving with vfu.activity := .verifying 1 k 1500 }
    ∀ k ∈ [VerifyKind.command, .debtForced, .ordinary, .pullIn], (s k).running ∧ (s k).frontAtVerify k ∧
      (s k).vfu.activity = .verifying 1 k 1500 := by
  intro s k h
  have b : (s k).stepWaits := waits_behind _ rfl rfl (barred_actuating .driving)
  have r : k ≠ .recovery := by
    rintro rfl
    simp at h
  exact ⟨running_u1, Or.inr ⟨Or.inr (Or.inr (Or.inr b)), fun _ => b, r, fun o q e => by cases e⟩, rfl⟩

/-- The four events that free the engine for a step frame that waits; each takes it. -/
theorem witness_WaitingHeadsAreExamined_engine :
    let y := entryOf stepA .waiting
    let route := behind { reporting u1 with rev.route := some { since := 35500, results := [] } }
    let placing := behind (reportWaits u1)
    let dwell := behind { u1 with
      ste.st := .settling
      ste.dwell := some 35500
      ste.ident := some { identA with quiet := true }
      ste.snapshot := some p21 }
    let verify := behind { latched .landed u1 with vfu.activity := .verifying 0 .recovery 1500 }
    (StepBehind route 36000 y [] ∧ route.ste.st = .reportWait ∧ route.ste.ident = some identA ∧
      route.ste.outcome = some .settled ∧ route.rtq.report = none) ∧
      (StepBehind placing 36000 y [] ∧ placing.ste.report = some (parseFrame safeAll) ∧ placing.rtq.report = some (parseFrame foreign) ∧
        placing.rtq.alert = none ∧ placing.rtq.response = none ∧ placing.rtq.echo = none ∧
        placing.rtq.queue.length + marginEntries placing.lnk.margin = 24) ∧
      (StepBehind dwell 35500 y [] ∧ dwell.ste.st = .settling ∧ dwell.ste.dwell = some 35500) ∧
      (StepBehind verify 1500 y [] ∧ verify.ste.st = .idle ∧ ∀ x ∈ verify.csd.latch, x.state = .landed ∧ bankOf x.elem = 0) ∧
      let taken := fun t : State => t.ste.st == .checking && t.fwq.queue == [entryOf stepA .held]
      after (exec (.routeRequestComplete 36000) route) taken = true ∧ after (exec (.transmissionEnd 36000 .a) placing) taken = true ∧
        after (exec .dwellTimerExpiry dwell) taken = true ∧ after (exec (.verifyComplete (e0At 0)) verify) taken = true := by
  refine ⟨⟨⟨running_u1, ?_, rfl, rfl, rfl, rfl, rfl, rfl, by decide +kernel⟩, rfl, rfl, rfl, rfl⟩,
    ⟨⟨running_u1, ?_, rfl, rfl, rfl, rfl, rfl, rfl, by decide +kernel⟩, rfl, rfl, rfl, rfl, rfl, by decide +kernel⟩,
    ⟨⟨running_u1, ?_, rfl, rfl, rfl, rfl, rfl, rfl, by decide +kernel⟩, rfl, rfl⟩,
    ⟨⟨running_u1, ?_, rfl, rfl, rfl, rfl, rfl, rfl, by decide +kernel⟩, rfl, by decide +kernel⟩,
    by decide +kernel, by decide +kernel, by decide +kernel, by decide +kernel⟩ <;>
  · unfold State.complete
    decide +kernel

/-- A report that finds the report outbox empty; one that finds it occupied, and the event that admits the report before it. -/
theorem witness_RouteResultsAreReported_outbox :
    let r : RouteRequest := { since := 35500, results := [] }
    let free := { reporting u1 with rev.route := some r }
    let full := congested { free with rtq.report := some (parseFrame foreign) }
    let pending := reportWaits u1
    (free.running ∧ free.frontStill ∧ free.rtq.report = none) ∧ (full.running ∧ full.frontStill ∧ full.reportBarred) ∧
      (pending.running ∧ pending.headQuiet ∧ (pending.advance 36000).complete ∧ pending.ste.report = some (parseFrame safeAll) ∧
        pending.rtq.report = some (parseFrame foreign) ∧ pending.rtq.queue.length + marginEntries pending.lnk.margin = 24) ∧
      after (exec (.routeRequestComplete 36000) free) (fun t => t.ste.st == .idle && t.vfu.idleLead == some 5036000) = true ∧
      after (exec (.routeRequestComplete 36000) full) (fun t => t.ste.st == .reportWait && t.vfu.idleLead == none) = true := by
  refine ⟨⟨running_u1, still_of_empty _ rfl, rfl⟩, ⟨running_u1, still_of_empty _ rfl, by simp [congested], by decide +kernel⟩,
    ⟨running_u1, quiet_of_empty _ rfl, ?_, rfl, rfl, by decide +kernel⟩, by decide +kernel, by decide +kernel⟩
  unfold State.complete
  decide +kernel

/-- The first event after a reset, of three kinds, with both level conditions present: it reads them, and acts. -/
theorem witness_LevelConditionsAreRead_first :
    let s := lowSupply (withInput .doorIn 2 true State.reset)
    ∀ c ∈ [Instr.frameReceived 5 .a foreign, .linkDown 5 .b, .enterConfig toNode],
      (∀ t p, c ≠ .powerOn t p) ∧ (∀ t, c ≠ .resetN t) ∧ (∀ t p, c ≠ .resetNRelease t p) ∧
      after (exec c s) (fun t => t.isLatched .vcoilLow && t.isLatched .door && t.mdc.trips == [.vcoilLow, .door]) = true := by
  intro s c h
  simp only [List.mem_cons, List.not_mem_nil, or_false] at h
  rcases h with rfl | rfl | rfl <;> exact ⟨by simp, by simp, by simp, by decide +kernel⟩

/-- A step frame that waits in RUN at a trip, and the claims that a trip finds: for the debt and for the recovery in RUN, for the
sequence in ENTRY. -/
theorem witness_TripsActByMode_claims :
    let y := entryOf stepA .waiting
    let waiting := behind { actuating .driving with mdc.trips := [.door] }
    let claimed (k : VerifyKind) (s : State) := { s with vfu.activity := .claimed 0 k, mdc.trips := [.door] }
    let run (k : VerifyKind) := claimed k (flying (.step 0) .driving)
    let entry (k : VerifyKind) (c : TripCause) := { claimed k (entering 0 .config) with
      csd.pulses := (flying .safe .driving).csd.pulses, mdc.trips := [c] }
    (waiting.running ∧ waiting.mdc.mode = .run ∧ waiting.mga = .idle ∧ waiting.lnk.transparent = false ∧
      waiting.lnk.b.link = .up ∧ waiting.fwq.queue = [y] ∧ y.status = .waiting ∧ y.frame.isStep = true ∧
      after (exec (.trip 600) waiting) (fun t => t.fwq.queue.all (fun x => x.status == .released && x.frame.status == 2)) = true) ∧
      (∀ k ∈ [VerifyKind.debtForced, .recovery], (run k).running ∧ (run k).frontFirm ∧ (run k).mdc.mode = .run ∧
        (run k).vfu.activity = .claimed 0 k ∧ (run k).csd.bankIdle 0 600 = false) ∧
      after (exec (.trip 600) (run .debtForced)) (fun t => t.vfu.activity == .claimed 0 .debtForced) = true ∧
      after (exec (.trip 600) (run .recovery)) (fun t => t.vfu.activity == .free) = true ∧
      (∀ k : VerifyKind, ∀ c : TripCause, (entry k c).running ∧ (entry k c).headFirm ∧ (entry k c).mdc.mode = .entry .config .enterRun ∧
        (entry k c).mga = .serving request ∧ (entry k c).rtq.responseHeld = false ∧ (entry k c).vfu.inHand = some (.entry 0) ∧
        (entry k c).vfu.activity = .claimed 0 k) ∧
      after (exec (.trip 600) (entry .command (.mismatch 1))) (fun t => t.vfu.activity == .free) = true := by
  refine ⟨⟨running_u1, rfl, rfl, rfl, rfl, rfl, rfl, by decide +kernel, by decide +kernel⟩, ?_, by decide +kernel, by decide +kernel,
    fun k c => ⟨running_u1, Or.inl (quiet_of_empty _ rfl), rfl, rfl, rfl, rfl, rfl⟩, by decide +kernel⟩
  intro k _
  exact ⟨running_u1, Or.inl (Or.inl (quiet_of_empty _ rfl)), rfl, rfl, by cases k <;> decide +kernel⟩

/-- The claims that the entries of CONFIG and ENTRY find, for a bank with a pulse in flight. -/
theorem witness_EnterConfigLeavesRunAndSafe_claims :
    let claimed (k : VerifyKind) (s : State) := { s with vfu.activity := .claimed 0 k }
    let run (k : VerifyKind) := claimed k (flying .recovery .driving)
    let config := { claimed .debtForced (inMode .config (flying .safe .driving)) with mdc.validating := some 0, mga := .serving request }
    (∀ k ∈ [VerifyKind.debtForced, .recovery], Reaches (run k) { toNode with time := 600 } ∧ (run k).mdc.mode = .run ∧
      (run k).ste.st = .idle ∧ (run k).vfu.activity = .claimed 0 k ∧
      after (exec (.enterConfig { toNode with time := 600 }) (run k)) (fun t => t.vfu.activity == .free && t.mdc.mode == .config) =
        true) ∧
      config.running ∧ config.headFirm ∧ config.mdc.validating = some 0 ∧ validate config.tbs = none ∧
      config.vfu.activity = .claimed 0 .debtForced ∧
      after (exec (.validationComplete 600) config) (fun t => t.vfu.activity == .claimed 0 .command) = true := by
  refine ⟨?_, running_u1, Or.inl (quiet_of_empty _ rfl), rfl, test_valid_tables, rfl, by decide +kernel⟩
  intro k h
  refine ⟨reaches _ _ running_u1 ?_ rfl reaches_u1.addressed rfl rfl rfl (Or.inl own_u1), rfl, rfl, rfl, ?_⟩ <;>
  · revert k
    decide +kernel

end Sys2Proof.Tests
end

section
/-! SUPPORT. What the present links of a valid topology are (R7, R8, R111): a node has at most one link, and following a link leads
back and forth between its two nodes. -/

namespace Sys2Proof.Machine

/-! ## The two ends of a link -/

theorem LinkRec.otherEnd_eq_some {l : LinkRec} {n m : Node} (h : l.otherEnd n = some m) :
    (n = l.a ∧ m = l.b) ∨ (n = l.b ∧ m = l.a) := by
  unfold LinkRec.otherEnd at h
  split at h
  · next ha => exact .inl ⟨ha.symm, (Option.some.inj h).symm⟩
  · split at h
    · next hb => exact .inr ⟨hb.symm, (Option.some.inj h).symm⟩
    · cases h

theorem LinkRec.otherEnd_symm {l : LinkRec} {n m : Node} (distinct : l.a ≠ l.b) (h : l.otherEnd n = some m) :
    l.otherEnd m = some n := by
  obtain ⟨rfl, rfl⟩ | ⟨rfl, rfl⟩ := LinkRec.otherEnd_eq_some h
  · simp [LinkRec.otherEnd, distinct]
  · simp [LinkRec.otherEnd]

theorem LinkRec.names_of_otherEnd {l : LinkRec} {n m : Node} (h : l.otherEnd n = some m) : l.names n = true := by
  obtain ⟨rfl, rfl⟩ | ⟨rfl, rfl⟩ := LinkRec.otherEnd_eq_some h <;> simp [LinkRec.names]

/-! ## Links that pass validation share no node -/

theorem Tbs.linkShared_eq_false {t : Tbs} {i : Fin 160} {l : LinkRec} (valid : t.failingLink = none)
    (hi : t.links[i] = some l) : t.linkShared i l = false := by
  have hfault : t.linkFault i = none := by
    simpa using List.findSome?_eq_none_iff.mp valid i (List.mem_finRange i)
  unfold Tbs.linkFault at hfault
  simp only [hi] at hfault
  split at hfault
  · cases hfault
  · split at hfault
    · cases hfault
    · simpa using hfault

theorem Tbs.not_names_of_lt {t : Tbs} {i j : Fin 160} {l k : LinkRec} {n : Node} (valid : t.failingLink = none)
    (hi : t.links[i] = some l) (hj : t.links[j] = some k) (hlt : j < i) (hl : l.names n = true) : k.names n = false := by
  have hnone : (k.names l.a || k.names l.b) = false := by
    have hall := List.any_eq_false.mp (Tbs.linkShared_eq_false valid hi) j (List.mem_finRange j)
    simpa [hj, Fin.lt_def.mp hlt] using hall
  rw [Bool.or_eq_false_iff] at hnone
  obtain hn | hn : l.a = n ∨ l.b = n := by simpa [LinkRec.names] using hl
  · exact hn ▸ hnone.1
  · exact hn ▸ hnone.2

theorem Tbs.link_unique {t : Tbs} {i j : Fin 160} {l k : LinkRec} {n : Node} (valid : t.failingLink = none)
    (hi : t.links[i] = some l) (hj : t.links[j] = some k) (hl : l.names n = true) (hk : k.names n = true) : i = j := by
  obtain hlt | heq | hlt := lt_trichotomy i j
  · simp [Tbs.not_names_of_lt valid hj hi hlt hk] at hl
  · exact heq
  · simp [Tbs.not_names_of_lt valid hi hj hlt hl] at hk

/-! ## Following a link -/

theorem Tbs.link_of_follow {t : Tbs} {n m : Node} {i : Fin 160} (h : t.follow n = some (i, m)) :
    ∃ l, t.links[i] = some l ∧ l.otherEnd n = some m := by
  obtain ⟨j, -, hj⟩ := List.exists_of_findSome?_eq_some h
  obtain ⟨x, hx, heq⟩ := Option.map_eq_some_iff.mp hj
  obtain ⟨rfl, rfl⟩ := Prod.mk.inj heq
  exact Option.bind_eq_some_iff.mp hx

theorem Tbs.follow_of_link {t : Tbs} {n m : Node} {i : Fin 160} {l : LinkRec} (valid : t.failingLink = none)
    (hi : t.links[i] = some l) (hm : l.otherEnd n = some m) : t.follow n = some (i, m) := by
  have hsome : (t.follow n).isSome := by
    unfold Tbs.follow
    rw [List.findSome?_isSome_iff]
    exact ⟨i, List.mem_finRange i, by simp [hi, hm]⟩
  obtain ⟨⟨j, m'⟩, hf⟩ := Option.isSome_iff_exists.mp hsome
  obtain ⟨k, hk, hm'⟩ := Tbs.link_of_follow hf
  obtain rfl := Tbs.link_unique valid hi hk (LinkRec.names_of_otherEnd hm) (LinkRec.names_of_otherEnd hm')
  obtain rfl : l = k := Option.some.inj (hi.symm.trans hk)
  obtain rfl : m = m' := Option.some.inj (hm.symm.trans hm')
  exact hf

theorem Tbs.follow_symm {t : Tbs} {n m : Node} {i : Fin 160} (valid : t.failingLink = none) (sound : LinksSound t)
    (h : t.follow n = some (i, m)) : t.follow m = some (i, n) := by
  obtain ⟨l, hl, hm⟩ := Tbs.link_of_follow h
  exact Tbs.follow_of_link valid hl (LinkRec.otherEnd_symm (sound i l hl).1 hm)

theorem Tbs.follow_ne {t : Tbs} {n m : Node} {i : Fin 160} (sound : LinksSound t) (h : t.follow n = some (i, m)) :
    m ≠ n := by
  obtain ⟨l, hl, hm⟩ := Tbs.link_of_follow h
  obtain ⟨rfl, rfl⟩ | ⟨rfl, rfl⟩ := LinkRec.otherEnd_eq_some hm
  · exact (sound i l hl).1.symm
  · exact (sound i l hl).1

end Sys2Proof.Machine
end

section
/-! SUPPORT. The plain walk of a source (R12 to R14), one move at a time, and why in a valid topology it passes no element twice:
`WalkFront` is kept by every move. -/

namespace Sys2Proof.Machine

/-! ## One move of a plain walk -/

/-- At position `p` a plain walk that arrives at one node of the element `e` leaves it on the other (R12 cases 4 and 5). -/
inductive PassesElement (c : Csd) (e : Elem) (p : Pos) : Node → Node → Prop
  | toThrow (at_ : c.walkPosition e = some p) (notOpen : p ≠ 0) : PassesElement c e p (.common e) (.throw e p)
  | toCommon (at_ : c.walkPosition e = some p) : PassesElement c e p (.throw e p) (.common e)

/-- The endpoint that a source or terminal node is (R12 cases 2 and 3, R18). -/
def Node.endpoint : Node → Option Endpoint
  | .source s => some (.cross s)
  | .terminal x => some (.terminal x)
  | .common _ => none
  | .throw _ _ => none

/-- The endpoint at which a plain walk with this outcome has ended. -/
def RouteOutcome.endpoint : RouteOutcome → Option Endpoint
  | .terminal x => some (.terminal x)
  | .cross s => some (.cross s)
  | .opened => none
  | .unknown => none

theorem plainAtCommon_cases (t : Tbs) (c : Csd) (e : Elem) :
    (∃ o, plainAtCommon t c e = .stop o ∧ o.endpoint = none) ∨
      ∃ p onto, plainAtCommon t c e = .pass p onto ∧ PassesElement c e p (.common e) onto := by
  unfold plainAtCommon
  split
  · exact .inl ⟨_, rfl, rfl⟩
  · split
    · exact .inl ⟨_, rfl, rfl⟩
    · next p hp =>
      split
      · exact .inl ⟨_, rfl, rfl⟩
      · next hopen => exact .inr ⟨_, _, rfl, .toThrow hp hopen⟩

theorem plainAtThrow_cases (t : Tbs) (c : Csd) (e : Elem) (k : Pos) :
    (∃ o, plainAtThrow t c e k = .stop o ∧ o.endpoint = none) ∨
      ∃ p onto, plainAtThrow t c e k = .pass p onto ∧ PassesElement c e p (.throw e k) onto := by
  unfold plainAtThrow
  split
  · exact .inl ⟨_, rfl, rfl⟩
  · split
    · exact .inl ⟨_, rfl, rfl⟩
    · next p hp =>
      split
      · next hk => exact .inr ⟨_, _, rfl, hk ▸ .toCommon hp⟩
      · exact .inl ⟨_, rfl, rfl⟩

/-- All that a move of a plain walk can be: no link to follow, an end on the node that the link leads to, or an element passed. -/
theorem plainWalk_succ_cases (t : Tbs) (c : Csd) (src : Fin 8) (fuel : Nat) (n : Node) (ls : List (Fin 160))
    (es : List (Elem × Pos)) :
    (t.follow n = none ∧ plainWalk t c src (fuel + 1) n ls es = ⟨src, .opened, ls, es⟩) ∨
      ∃ i m, t.follow n = some (i, m) ∧
        ((∃ o, plainWalk t c src (fuel + 1) n ls es = ⟨src, o, ls ++ [i], es⟩ ∧ o.endpoint = m.endpoint) ∨
          ∃ e p onto, PassesElement c e p m onto ∧
            plainWalk t c src (fuel + 1) n ls es = plainWalk t c src fuel onto (ls ++ [i]) (es ++ [(e, p)])) := by
  cases hf : t.follow n with
  | none => exact .inl ⟨rfl, by simp [plainWalk, hf]⟩
  | some im =>
    obtain ⟨i, m⟩ := im
    refine .inr ⟨i, m, rfl, ?_⟩
    cases m with
    | source x => exact .inl ⟨.cross x, by simp [plainWalk, hf], rfl⟩
    | terminal x => exact .inl ⟨.terminal x, by simp [plainWalk, hf], rfl⟩
    | common e =>
      obtain ⟨o, hstop, ho⟩ | ⟨p, onto, hpass, hp⟩ := plainAtCommon_cases t c e
      · exact .inl ⟨o, by simp [plainWalk, hf, hstop], ho⟩
      · exact .inr ⟨e, p, onto, hp, by simp [plainWalk, hf, hpass]⟩
    | throw e k =>
      obtain ⟨o, hstop, ho⟩ | ⟨p, onto, hpass, hp⟩ := plainAtThrow_cases t c e k
      · exact .inl ⟨o, by simp [plainWalk, hf, hstop], ho⟩
      · exact .inr ⟨e, p, onto, hp, by simp [plainWalk, hf, hpass]⟩

/-! ## The nodes behind a plain walk -/

/-- The two nodes that the element `e` joins at its position. -/
def JoinedBy (c : Csd) (e : Elem) (v : Node) : Prop :=
  v = .common e ∨ ∃ p, c.walkPosition e = some p ∧ v = .throw e p

theorem PassesElement.joinedBy_iff {c : Csd} {e : Elem} {p : Pos} {m onto v : Node} (h : PassesElement c e p m onto) :
    JoinedBy c e v ↔ v = m ∨ v = onto := by
  cases h with
  | toThrow hp => simp [JoinedBy, hp]
  | toCommon hp => simp [JoinedBy, hp, or_comm]

theorem PassesElement.ne {c : Csd} {e : Elem} {p : Pos} {m onto : Node} (h : PassesElement c e p m onto) : m ≠ onto := by
  cases h <;> simp

/-- A node of the walk that started at `src` and has passed the elements `passed`: its source, or a node of one of these. -/
def OnRoute (c : Csd) (src : Fin 8) (passed : List Elem) (v : Node) : Prop :=
  v = .source src ∨ ∃ e ∈ passed, JoinedBy c e v

theorem JoinedBy.onRoute_iff {c : Csd} {src : Fin 8} {passed : List Elem} {e : Elem} {v : Node} (h : JoinedBy c e v) :
    OnRoute c src passed v ↔ e ∈ passed := by
  constructor
  · intro hv
    obtain rfl | ⟨p, hp, rfl⟩ := h
    · simpa [OnRoute, JoinedBy] using hv
    · exact And.left (by simpa [OnRoute, JoinedBy] using hv)
  · exact fun he => .inr ⟨e, he, h⟩

theorem onRoute_cons {c : Csd} {src : Fin 8} {passed : List Elem} {e : Elem} {v : Node} :
    OnRoute c src (e :: passed) v ↔ OnRoute c src passed v ∨ JoinedBy c e v := by
  simp only [OnRoute, List.exists_mem_cons_iff, or_assoc, or_comm (a := JoinedBy c e v)]

/-- The walk stands on `n`, one of its nodes, and the links of its other nodes stay among these others: so the link of `n` leads
off the walk. -/
structure WalkFront (t : Tbs) (c : Csd) (src : Fin 8) (passed : List Elem) (n : Node) : Prop where
  on : OnRoute c src passed n
  closed : ∀ v w i, OnRoute c src passed v → v ≠ n → t.follow v = some (i, w) → OnRoute c src passed w ∧ w ≠ n

theorem WalkFront.start (t : Tbs) (c : Csd) (src : Fin 8) : WalkFront t c src [] (.source src) where
  on := .inl rfl
  closed v w i hv hne _ := by
    obtain rfl : v = .source src := by simpa [OnRoute] using hv
    exact absurd rfl hne

theorem WalkFront.leads_off {t : Tbs} {c : Csd} {src : Fin 8} {passed : List Elem} {n m : Node} {i : Fin 160}
    (front : WalkFront t c src passed n) (valid : t.failingLink = none) (sound : LinksSound t)
    (h : t.follow n = some (i, m)) : ¬ OnRoute c src passed m := fun hm =>
  (front.closed m n i hm (Tbs.follow_ne sound h) (Tbs.follow_symm valid sound h)).2 rfl

theorem WalkFront.not_passed {t : Tbs} {c : Csd} {src : Fin 8} {passed : List Elem} {n m onto : Node} {i : Fin 160} {e : Elem}
    {p : Pos} (front : WalkFront t c src passed n) (valid : t.failingLink = none) (sound : LinksSound t)
    (h : t.follow n = some (i, m)) (hpass : PassesElement c e p m onto) : e ∉ passed := fun he =>
  front.leads_off valid sound h ((hpass.joinedBy_iff.mpr (.inl rfl)).onRoute_iff.mpr he)

theorem WalkFront.pass {t : Tbs} {c : Csd} {src : Fin 8} {passed : List Elem} {n m onto : Node} {i : Fin 160} {e : Elem}
    {p : Pos} (front : WalkFront t c src passed n) (valid : t.failingLink = none) (sound : LinksSound t)
    (h : t.follow n = some (i, m)) (hpass : PassesElement c e p m onto) : WalkFront t c src (e :: passed) onto := by
  have hnew : e ∉ passed := front.not_passed valid sound h hpass
  have honto : ∀ w, OnRoute c src passed w → w ≠ onto := by
    rintro w hw rfl
    exact hnew ((hpass.joinedBy_iff.mpr (.inr rfl)).onRoute_iff.mp hw)
  refine ⟨onRoute_cons.mpr (.inr (hpass.joinedBy_iff.mpr (.inr rfl))), ?_⟩
  intro v w j hv hne hw
  rw [onRoute_cons, hpass.joinedBy_iff] at hv ⊢
  obtain hv | rfl | rfl := hv
  · by_cases hvn : v = n
    · subst hvn
      obtain ⟨-, rfl⟩ : i = j ∧ m = w := by simpa using h.symm.trans hw
      exact ⟨.inr (.inl rfl), hpass.ne⟩
    · have hon := (front.closed v w j hv hvn hw).1
      exact ⟨.inl hon, honto w hon⟩
  · obtain ⟨-, rfl⟩ : i = j ∧ n = w := by simpa using (Tbs.follow_symm valid sound h).symm.trans hw
    exact ⟨.inl front.on, honto n front.on⟩
  · exact absurd rfl hne

end Sys2Proof.Machine
end

section
/-! SUPPORT. The span walks (R15 to R22): what a branch can reach, and that a PASS has examined all of it for every source. -/

namespace Sys2Proof.Machine

/-! ## What a branch reaches -/

/-- A branch reaches an endpoint, by its next move or by one of the branches it becomes. -/
inductive BranchReaches (t : Tbs) (sets : Vector (List Pos) 48) : Branch → Endpoint → Prop
  | now {b : Branch} {x : Endpoint} (h : .reach x ∈ spanMoves t sets b) : BranchReaches t sets b x
  | later {b b' : Branch} {x : Endpoint} (h : .branch b' ∈ spanMoves t sets b) (hx : BranchReaches t sets b' x) :
      BranchReaches t sets b x

theorem reach_mem_spanMoves {t : Tbs} {sets : Vector (List Pos) 48} {b : Branch} {i : Fin 160} {m : Node} {x : Endpoint}
    (h : t.follow b.node = some (i, m)) (hx : m.endpoint = some x) : .reach x ∈ spanMoves t sets b := by
  cases m with
  | source s => obtain rfl : Endpoint.cross s = x := Option.some.inj hx; simp [spanMoves, h]
  | terminal y => obtain rfl : Endpoint.terminal y = x := Option.some.inj hx; simp [spanMoves, h]
  | common e => cases hx
  | throw e k => cases hx

/-- Where the element's set holds the position at which a plain walk passes it, a branch passes it too (R18). -/
theorem branch_mem_spanMoves {t : Tbs} {c : Csd} {sets : Vector (List Pos) 48} {b : Branch} {i : Fin 160} {m onto : Node}
    {e : Elem} {p : Pos} (h : t.follow b.node = some (i, m)) (hpass : PassesElement c e p m onto) (hp : p ∈ sets[e])
    (hnew : e ∉ b.passed) : .branch { node := onto, passed := e :: b.passed } ∈ spanMoves t sets b := by
  cases hpass with
  | toThrow hpos hopen =>
    have hne : sets[e] ≠ [] := List.ne_nil_of_mem hp
    simp only [spanMoves, h, spanAtCommon, if_neg hne, List.mem_map]
    exact ⟨p, hp, by simp [hopen, passElement, hnew]⟩
  | toCommon hpos =>
    simp only [spanMoves, h, spanAtThrow, if_pos hp, List.mem_singleton]
    simp [passElement, hnew]

/-! ## Moves of the walk set -/

theorem mem_reachedBy {ms : List SpanMove} {x : Endpoint} : x ∈ reachedBy ms ↔ .reach x ∈ ms := by
  simp only [reachedBy, List.mem_filterMap]
  constructor
  · rintro ⟨m, hm, hx⟩
    cases m <;> simp_all
  · exact fun h => ⟨_, h, rfl⟩

theorem mem_branchesOf {ms : List SpanMove} {b : Branch} : b ∈ branchesOf ms ↔ .branch b ∈ ms := by
  simp only [branchesOf, List.mem_filterMap]
  constructor
  · rintro ⟨m, hm, hb⟩
    cases m <;> simp_all
  · exact fun h => ⟨_, h, rfl⟩

theorem WalkSet.mem_move_branches {t : Tbs} {sets : Vector (List Pos) 48} {w : WalkSet} {b b' : Branch} {rest : List Branch} :
    b' ∈ (w.move t sets b rest).branches ↔ .branch b' ∈ spanMoves t sets b ∨ b' ∈ rest := by
  simp [WalkSet.move, mem_branchesOf]

theorem mem_foldl_recordEndpoint {xs l : List Endpoint} {y : Endpoint} :
    y ∈ xs.foldl (fun l x => if l.contains x then l else l ++ [x]) l ↔ y ∈ l ∨ y ∈ xs := by
  induction xs generalizing l with
  | nil => simp
  | cons x xs ih =>
    rw [List.foldl_cons, ih]
    split
    · next h =>
      have hx : x ∈ l := by simpa using h
      constructor
      · rintro (hy | hy) <;> simp [hy]
      · rw [List.mem_cons]
        rintro (hy | rfl | hy) <;> simp [*]
    · simp [or_assoc]

theorem WalkSet.mem_move_reached {t : Tbs} {sets : Vector (List Pos) 48} {w : WalkSet} {b : Branch} {rest : List Branch}
    {x : Endpoint} : x ∈ (w.move t sets b rest).reached ↔ x ∈ w.reached ∨ .reach x ∈ spanMoves t sets b := by
  rw [← mem_reachedBy]
  exact mem_foldl_recordEndpoint

/-! ## What a PASS says -/

/-- The ways a run with some fuel left can come to PASS (R20, R21). -/
theorem runWalk_succ_pass {t : Tbs} {sets : Vector (List Pos) 48} {fuel : Nat} {w : WalkSet}
    (h : runWalk t sets (fuel + 1) w = .pass) :
    (∃ b rest, w.branches = b :: rest ∧ runWalk t sets fuel (w.move t sets b rest) = .pass) ∨
      (w.branches = [] ∧ (∀ x ∈ w.reached, t.failsSpan w.source x = false) ∧
        ∀ hlt : w.source.val + 1 < 8, runWalk t sets fuel (walkFrom ⟨w.source.val + 1, hlt⟩) = .pass) := by
  unfold runWalk at h
  split at h
  · cases h
  · split at h
    · next b rest hb => exact .inl ⟨b, rest, hb, h⟩
    · next hb =>
      split at h
      · cases h
      · next hany =>
        refine .inr ⟨hb, by simpa using hany, fun hlt => ?_⟩
        rwa [dif_pos hlt] at h

theorem runWalk_pass_reached {t : Tbs} {sets : Vector (List Pos) 48} {fuel : Nat} {w : WalkSet}
    (h : runWalk t sets fuel w = .pass) :
    (∀ x ∈ w.reached, t.failsSpan w.source x = false) ∧
      ∀ b ∈ w.branches, ∀ x, BranchReaches t sets b x → t.failsSpan w.source x = false := by
  induction fuel generalizing w with
  | zero => cases h
  | succ fuel ih =>
    obtain ⟨b, rest, hb, hmove⟩ | ⟨hb, hreached, -⟩ := runWalk_succ_pass h
    · obtain ⟨ihReached, ihBranches⟩ := ih hmove
      refine ⟨fun x hx => ihReached x (WalkSet.mem_move_reached.mpr (.inl hx)), ?_⟩
      intro b' hb' x hx
      rw [hb, List.mem_cons] at hb'
      obtain rfl | hrest := hb'
      · cases hx with
        | now hnow => exact ihReached x (WalkSet.mem_move_reached.mpr (.inr hnow))
        | later hbranch hlater => exact ihBranches _ (WalkSet.mem_move_branches.mpr (.inl hbranch)) x hlater
      · exact ihBranches b' (WalkSet.mem_move_branches.mpr (.inr hrest)) x hx
    · exact ⟨hreached, by simp [hb]⟩

/-- A run that passes has run, from its start, the walk of every later source. -/
theorem runWalk_pass_later {t : Tbs} {sets : Vector (List Pos) 48} {fuel : Nat} {w : WalkSet} {src : Fin 8}
    (h : runWalk t sets fuel w = .pass) (hlt : w.source < src) : ∃ n, runWalk t sets n (walkFrom src) = .pass := by
  induction fuel generalizing w with
  | zero => cases h
  | succ fuel ih =>
    obtain ⟨b, rest, -, hmove⟩ | ⟨-, -, hnext⟩ := runWalk_succ_pass h
    · exact ih hmove hlt
    · have hval : w.source.val < src.val := hlt
      have hrun := hnext (by omega)
      by_cases heq : w.source.val + 1 = src.val
      · have hsrc : (⟨w.source.val + 1, by omega⟩ : Fin 8) = src := Fin.ext heq
        exact ⟨fuel, hsrc ▸ hrun⟩
      · exact ih hrun (Fin.lt_def.mpr (show w.source.val + 1 < src.val by omega))

theorem spanVerdict_pass {t : Tbs} {sets : Vector (List Pos) 48} (h : spanVerdict t sets = .pass) (src : Fin 8)
    {x : Endpoint} (hx : BranchReaches t sets { node := .source src, passed := [] } x) : t.failsSpan src x = false := by
  obtain ⟨n, hrun⟩ : ∃ n, runWalk t sets n (walkFrom src) = .pass := by
    by_cases h0 : src = 0
    · subst h0
      exact ⟨_, h⟩
    · exact runWalk_pass_later h (Fin.pos_of_ne_zero h0)
  exact (runWalk_pass_reached hrun).2 _ (List.mem_singleton.mpr rfl) x hx

end Sys2Proof.Machine
end

section
/-! PROOF. Every source's plain walk is followed by a branch of its span walk (O21). -/

namespace Sys2Proof.Machine

/-- A plain walk that ends at a source or terminal is one that the branch on the same node, with the same elements passed, makes
too: as it meets no element again (`WalkFront`), the branch is never discarded (R19). -/
theorem plainWalk_branchReaches {t : Tbs} {c : Csd} {sets : Vector (List Pos) 48} {src : Fin 8} {fuel : Nat} {n : Node}
    {passed : List Elem} {ls : List (Fin 160)} {es : List (Elem × Pos)} {x : Endpoint} (valid : t.failingLink = none)
    (sound : LinksSound t) (covered : ∀ e p, c.walkPosition e = some p → p ∈ sets[e]) (front : WalkFront t c src passed n)
    (h : (plainWalk t c src fuel n ls es).outcome.endpoint = some x) :
    BranchReaches t sets { node := n, passed := passed } x := by
  induction fuel generalizing n passed ls es with
  | zero => cases h
  | succ fuel ih =>
    obtain ⟨-, hend⟩ | ⟨i, m, hf, ⟨o, hend, ho⟩ | ⟨e, p, onto, hpass, hnext⟩⟩ :=
      plainWalk_succ_cases t c src fuel n ls es
    · rw [hend] at h
      cases h
    · rw [hend] at h
      exact .now (reach_mem_spanMoves hf (ho ▸ h))
    · rw [hnext] at h
      have hp : p ∈ sets[e] := covered e p (by cases hpass <;> assumption)
      exact .later (branch_mem_spanMoves hf hpass hp (front.not_passed valid sound hf hpass))
        (ih (front.pass valid sound hf hpass) h)

/-- Settles O21: every endpoint of a route trace is one that the span walk of its source reaches, and a PASS has found each of
these harmless. -/
theorem spanPassExcludesForbiddenRoutes : Obligations.SpanPassExcludesForbiddenRoutes := by
  intro t c sets valid sound covered hpass src
  have harmless : ∀ x, (trace t c src).outcome.endpoint = some x → t.failsSpan src x = false := fun x hx =>
    spanVerdict_pass hpass src (plainWalk_branchReaches valid sound covered (WalkFront.start t c src) hx)
  refine ⟨fun x hx => ?_, fun x hx => ?_⟩
  · simpa [Tbs.failsSpan, Tbs.forbidden] using harmless (.terminal x) (by rw [hx]; rfl)
  · simpa [Tbs.failsSpan] using harmless (.cross x) (by rw [hx]; rfl)

end Sys2Proof.Machine
end

section
/-! PROOF. What replacing a CLASS or an ELEMENT record does to the recorded positions (R5, R6; O49). -/

namespace Sys2Proof.Machine

theorem Csd.busy_eq_true_iff (c : Csd) (e : Elem) : c.busy e = true ↔ c.pulses[e] ≠ none ∨ c.pending[e] ≠ none := by
  simp [Csd.busy, Csd.inTransit, Option.isSome_iff_ne_none]

theorem Tbs.isOfClass_iff (t : Tbs) (e : Elem) (c : Fin 8) : t.isOfClass e c = true ↔ t.elements[e] = .fitted c := by
  simp [Tbs.isOfClass]

theorem positionAfterElement_notFitted (old : ElemRec) (p : Option Pos) :
    positionAfterElement old .notFitted p = some 0 := by
  simp [positionAfterElement]

theorem positionAfterElement_same {old : ElemRec} (fit : old ≠ .notFitted) (p : Option Pos) :
    positionAfterElement old old p = p := by
  simp [positionAfterElement, fit]

theorem positionAfterElement_changed {old new : ElemRec} (fit : new ≠ .notFitted) (changed : new ≠ old) (p : Option Pos) :
    positionAfterElement old new p = none := by
  simp [positionAfterElement, fit, changed]

/-- What the stores of CLASS and ELEMENT records have in common: the field checks, then the refusal STATE, then the effect. -/
theorem checkedStore_ok_iff {α : Type} {d : Except FieldFault α} {busy : Bool} {effect : α → State} {t : State} :
    (do
      let x ← fieldNak d
      if busy then throw .state
      return effect x : Except Nak State) = .ok t ↔ ∃ x, d = .ok x ∧ busy = false ∧ t = effect x := by
  cases d with
  | error f => simp [fieldNak, bind, Except.bind]
  | ok x =>
    cases busy <;>
      simp [fieldNak, bind, Except.bind, pure, Except.pure, throw, throwThe, MonadExceptOf.throw, eq_comm]

theorem positionUnder_eq_some_iff (r : Option ClassRec) (q : Option Pos) (p : Pos) :
    positionUnder r q = some p ↔ q = some p ∧ ∃ k, r = some k ∧ p ∈ k.validPositions := by
  cases r with
  | none => simp [positionUnder]
  | some k =>
    cases q with
    | none => simp [positionUnder]
    | some v =>
      simp only [positionUnder, Option.ite_none_right_eq_some, List.contains_iff_mem, Option.some.injEq, exists_eq_left']
      constructor
      · rintro ⟨hv, rfl⟩
        exact ⟨rfl, hv⟩
      · rintro ⟨rfl, hv⟩
        exact ⟨hv, rfl⟩

theorem noneBusy_iff (s : State) (c : Fin 8) : allElems.any (fun e => s.tbs.isOfClass e c && s.csd.busy e) = false ↔
    ∀ e : Elem, s.tbs.elements[e] = .fitted c → s.csd.busy e = false := by
  simp [allElems, Tbs.isOfClass]

/-- A CLASS record is stored just where its fields are sound and no element of the class is busy, with this effect. -/
theorem storeClass_ok_iff {c : Fin 8} {r : List Byte} {s t : State} :
    storeClass c r s = .ok t ↔ ∃ x, decodeClass r = .ok x ∧
      (∀ e : Elem, s.tbs.elements[e] = .fitted c → s.csd.busy e = false) ∧
      t = { s with
        tbs.classes := s.tbs.classes.set c x
        csd.recorded := Vector.ofFn (fun e : Elem =>
          if s.tbs.isOfClass e c then positionUnder x s.csd.recorded[e] else s.csd.recorded[e]) } := by
  unfold storeClass
  rw [checkedStore_ok_iff]
  simp only [noneBusy_iff]

/-- An ELEMENT record is stored just where its field is sound and the element is not busy, with this effect. -/
theorem storeElement_ok_iff {i : Elem} {r : List Byte} {s t : State} :
    storeElement i r s = .ok t ↔ ∃ x, decodeElement r = .ok x ∧ s.csd.busy i = false ∧
      t = { s with
        tbs.elements := s.tbs.elements.set i x
        csd.recorded := s.csd.recorded.set i (positionAfterElement s.tbs.elements[i] x s.csd.recorded[i]) } := by
  unfold storeElement
  rw [checkedStore_ok_iff]

theorem storeClass_refused_of_busy {c : Fin 8} {r : List Byte} {s : State} {e : Elem} (he : s.tbs.elements[e] = .fitted c)
    (hb : s.csd.busy e = true) : ∃ n, storeClass c r s = .error n := by
  cases h : storeClass c r s with
  | error n => exact ⟨n, rfl⟩
  | ok t =>
    obtain ⟨x, -, hidle, -⟩ := storeClass_ok_iff.mp h
    rw [hidle e he] at hb
    cases hb

/-- Settles O49: by what a store that succeeds has checked and does. -/
theorem replacedRecordsKeepValidPositions : Obligations.ReplacedRecordsKeepValidPositions := by
  refine ⟨fun c r s => ⟨?_, ?_⟩, ?_⟩
  · rintro ⟨e, he, hb⟩
    exact storeClass_refused_of_busy he ((Csd.busy_eq_true_iff _ _).mpr hb)
  · intro t h
    obtain ⟨x, hx, -, rfl⟩ := storeClass_ok_iff.mp h
    refine ⟨x, hx, rfl, fun e p he => ?_, fun e he => ?_⟩
    · have hc : s.tbs.isOfClass e c = true := (Tbs.isOfClass_iff _ _ _).mpr he
      simpa [hc] using positionUnder_eq_some_iff x s.csd.recorded[e] p
    · have hc : s.tbs.isOfClass e c = false := by simpa [Tbs.isOfClass] using he
      simp [hc]
  · intro i r s t h
    obtain ⟨x, hx, hidle, rfl⟩ := storeElement_ok_iff.mp h
    obtain ⟨hpulse, hpending⟩ : s.csd.pulses[i] = none ∧ s.csd.pending[i] = none := by
      simpa [hidle] using (Csd.busy_eq_true_iff s.csd i).not
    have hset : (s.csd.recorded.set i (positionAfterElement s.tbs.elements[i] x s.csd.recorded[i]))[i] =
        positionAfterElement s.tbs.elements[i] x s.csd.recorded[i] := Vector.getElem_set_self _
    refine ⟨hpulse, hpending, x, hx, rfl, ?_, ?_, ?_, ?_⟩
    · rintro rfl
      exact hset.trans (positionAfterElement_notFitted _ _)
    · rintro hfit rfl
      exact hset.trans (positionAfterElement_same hfit _)
    · intro hfit hchanged
      exact hset.trans (positionAfterElement_changed hfit hchanged _)
    · intro e hne
      have hval : i.val ≠ e.val := fun hv => hne (Fin.ext hv.symm)
      exact Vector.getElem_set_ne i.isLt e.isLt hval

end Sys2Proof.Machine
end

section
/-! PROOF. Route sums, the rounded quotient and the loss between the bracketing sums (R33 to R36; O54). -/

namespace Sys2Proof.Machine

/-! ## Route sums (R33) -/

theorem clampLoss_mem_Icc (v : Int) : clampLoss v ∈ Set.Icc (-32767) 32767 := by
  simp only [clampLoss, Config.lossClamp, Set.mem_Icc]
  omega

theorem foldl_add_value_mem_Icc {f : Option LossRow → Int} {rows : List (Option LossRow)} {acc : RouteSum}
    (h : acc.value ∈ Set.Icc (-32767) 32767) :
    (rows.foldl (fun acc row => acc.add (f row)) acc).value ∈ Set.Icc (-32767) 32767 := by
  induction rows generalizing acc with
  | nil => exact h
  | cons row rows ih => exact ih (clampLoss_mem_Icc _)

theorem routeSum_value_mem_Icc (t : Tbs) (r : RouteRec) (x : Fin 32) (i : Fin 8) :
    (routeSum t r x i).value ∈ Set.Icc (-32767) 32767 :=
  foldl_add_value_mem_Icc (by simp)

/-! ## The rounded quotient (R35) -/

/-- `q` is `num / den` rounded to the nearest integer, halves away from zero. -/
def RoundsHalfAway (num den q : Int) : Prop :=
  2 * |num - q * den| ≤ den ∧ (2 * |num - q * den| = den → |num| < |q * den|)

theorem RoundsHalfAway.neg {num den q : Int} (h : RoundsHalfAway num den q) : RoundsHalfAway (-num) den (-q) := by
  have hsub : -num - -q * den = -(num - q * den) := by ring
  rw [RoundsHalfAway, hsub, neg_mul, abs_neg, abs_neg, abs_neg]
  exact h

theorem RoundsHalfAway.le {num den q b : Int} (h : RoundsHalfAway num den q) (pos : 0 < den) (hb : num ≤ b * den) :
    q ≤ b := by
  have hnear : 2 * (q * den - num) ≤ den := by
    have habs := neg_le_abs (num - q * den)
    have hhalf := h.1
    omega
  have hmul : 2 * q * den ≤ (2 * b + 1) * den := by linarith
  have hodd : 2 * q ≤ 2 * b + 1 := le_of_mul_le_mul_right hmul pos
  omega

theorem RoundsHalfAway.ge {num den q b : Int} (h : RoundsHalfAway num den q) (pos : 0 < den) (hb : b * den ≤ num) :
    b ≤ q :=
  neg_le_neg_iff.mp (h.neg.le pos (by linarith))

theorem roundedQuotient_neg (num : Int) {den : Nat} (pos : 0 < den) :
    roundedQuotient (-num) den = -roundedQuotient num den := by
  obtain hneg | rfl | hpos := lt_trichotomy num 0
  · simp [roundedQuotient, hneg, hneg.le]
  · simp [roundedQuotient, pos.ne']
  · simp [roundedQuotient, hpos, hpos.le]

/-- What is left over at a natural number `a` lies from minus half the divisor, inclusive, to half of it, exclusive. -/
theorem roundedQuotient_natCast_bounds (a : Nat) {den : Nat} (pos : 0 < den) :
    0 ≤ roundedQuotient a den ∧ -(den : Int) ≤ 2 * (a - roundedQuotient a den * den) ∧
      2 * (a - roundedQuotient a den * den) < (den : Int) := by
  have hdiv : ((a / den : Nat) : Int) * den + (a % den : Nat) = a := by exact_mod_cast Nat.div_add_mod' a den
  have hmod := Nat.mod_lt a pos
  simp only [roundedQuotient, Int.natAbs_natCast, if_neg (Int.not_lt.mpr (Int.natCast_nonneg a))]
  generalize a / den = whole, a % den = rest at *
  split
  · rw [Nat.cast_succ, add_mul, one_mul]
    omega
  · omega

theorem roundedQuotient_roundsHalfAway (num : Int) {den : Nat} (pos : 0 < den) :
    RoundsHalfAway num den (roundedQuotient num den) := by
  have nonneg (a : Nat) : RoundsHalfAway a den (roundedQuotient a den) := by
    obtain ⟨hq, hlow, hhigh⟩ := roundedQuotient_natCast_bounds a pos
    have hprod : 0 ≤ roundedQuotient a den * den := by positivity
    rw [RoundsHalfAway, abs_of_nonneg hprod, Nat.abs_cast]
    obtain ⟨habs, _⟩ | ⟨habs, _⟩ := abs_cases ((a : Int) - roundedQuotient a den * den) <;> omega
  obtain ⟨a, rfl | rfl⟩ := num.eq_nat_or_neg
  · exact nonneg a
  · rw [roundedQuotient_neg _ pos]
    exact (nonneg a).neg

/-! ## Interpolation (R35, R36) -/

theorem RoundsHalfAway.mem_uIcc {lo hi x den q : Int} (h : RoundsHalfAway ((hi - lo) * x) den q) (pos : 0 < den)
    (hx : 0 ≤ x) (hxd : x ≤ den) : lo + q ∈ Set.uIcc lo hi := by
  obtain hle | hle := le_total lo hi
  · have hlow : 0 ≤ q := h.ge pos (by nlinarith)
    have hhigh : q ≤ hi - lo := h.le pos (by nlinarith)
    rw [Set.uIcc_of_le hle, Set.mem_Icc]
    omega
  · have hlow : hi - lo ≤ q := h.ge pos (by nlinarith)
    have hhigh : q ≤ 0 := h.le pos (by nlinarith)
    rw [Set.uIcc_of_ge hle, Set.mem_Icc]
    omega

/-- Inside its interval the loss is the lower sum and a quotient rounded half away from zero, and it stays between the sums. -/
theorem interpolate_spec (lo hi : Int) {flo fhi f : Nat} (hlow : flo ≤ f) (hhigh : f < fhi) :
    interpolate lo hi flo fhi f ∈ Set.uIcc lo hi ∧
      ∃ q, interpolate lo hi flo fhi f = lo + q ∧
        RoundsHalfAway ((hi - lo) * ((f : Int) - (flo : Int))) ((fhi : Int) - (flo : Int)) q := by
  have hround := roundedQuotient_roundsHalfAway ((hi - lo) * ((f : Int) - (flo : Int))) (den := fhi - flo) (by omega)
  rw [Nat.cast_sub (by omega)] at hround
  exact ⟨hround.mem_uIcc (by omega) (by omega) (by omega), _, rfl, hround⟩

/-! ## The interval of a frequency (R34) -/

theorem isGreatest_getLastD {l : List (Fin 7)} {d : Fin 7} (sorted : l.SortedLE) (nonempty : l ≠ []) :
    IsGreatest {i | i ∈ l} (l.getLastD d) := by
  rw [List.getLastD_eq_getLast?, List.getLast?_eq_some_getLast nonempty, Option.getD_some]
  exact ⟨List.getLast_mem nonempty, fun i hi => sorted.pairwise.rel_getLast hi⟩

/-- The interval chosen is the highest that does not begin above the frequency. -/
theorem intervalOf_isGreatest {g : Vector Nat 8} {f : Nat} (h : g[0] ≤ f) :
    IsGreatest {i : Fin 7 | g[i.val]'(by omega) ≤ f} (intervalOf g f) := by
  have hzero : (0 : Fin 7) ∈ (List.finRange 7).filter (fun i => g[i.val]'(by omega) ≤ f) := by simpa using h
  have hsorted := ((List.sortedLT_finRange 7).sortedLE.pairwise.filter (fun i => g[i.val]'(by omega) ≤ f)).sortedLE
  simpa [intervalOf] using isGreatest_getLastD (d := 0) hsorted (List.ne_nil_of_mem hzero)

theorem intervalOf_brackets {g : Vector Nat 8} {f : Nat} (hlow : g[0] < f) (hhigh : f < g[7]) :
    g[(intervalOf g f).val]'(by omega) ≤ f ∧ f < g[(intervalOf g f).val + 1]'(by omega) := by
  obtain ⟨hle, hgreatest⟩ := intervalOf_isGreatest hlow.le
  refine ⟨hle, ?_⟩
  by_contra hnext
  obtain hlast | hinner : (intervalOf g f).val = 6 ∨ (intervalOf g f).val + 1 < 7 := by omega
  · simp only [hlast] at hnext
    exact hnext hhigh
  · have hle : (⟨_, hinner⟩ : Fin 7) ≤ intervalOf g f := hgreatest (Nat.le_of_not_lt hnext)
    exact absurd (Fin.le_def.mp hle) (by simp)

/-! ## The loss of a route -/

/-- What the loss of a route that ends at terminal `n` can be, with the grid `g`, for a frequency above 0 (R32, R34). -/
inductive TerminalLoss (t : Tbs) (r : RouteRec) (n : Fin 32) (g : Vector Nat 8) (freq : Nat) : LossResult → Prop
  | below : TerminalLoss t r n g freq ⟨.belowGrid, (routeSum t r n 0).value, routeSat t r n⟩
  | above : TerminalLoss t r n g freq ⟨.aboveGrid, (routeSum t r n 7).value, routeSat t r n⟩
  | inside (low : g[0] < freq) (high : freq < g[7]) : TerminalLoss t r n g freq
      ⟨.inGrid, interpolate (routeSum t r n (intervalOf g freq).castSucc).value (routeSum t r n (intervalOf g freq).succ).value
        (g[(intervalOf g freq).val]'(by omega)) (g[(intervalOf g freq).val + 1]'(by omega)) freq, routeSat t r n⟩

/-- All that a loss result can be: a flag that carries no value, or a loss of the terminal at which the route ends. -/
theorem lossResult_cases (t : Tbs) (r : RouteRec) (freq : Nat) :
    (∃ flag, lossResult t r freq = ⟨flag, 0, false⟩ ∧ (flag = .noFreq ∨ flag = .noGrid ∨ flag = .noRoute)) ∨
      ∃ n g, r.outcome = .terminal n ∧ t.grid = some g ∧ TerminalLoss t r n g freq (lossResult t r freq) := by
  unfold lossResult
  split
  · next n hn =>
    split
    · exact .inl ⟨_, rfl, by simp⟩
    · split
      · exact .inl ⟨_, rfl, by simp⟩
      · next g hg =>
        refine .inr ⟨n, g, hn, hg, ?_⟩
        dsimp only
        split
        · exact .below
        · split
          · exact .above
          · exact .inside (by omega) (by omega)
  all_goals exact .inl ⟨_, rfl, by simp⟩

/-- Settles O54: by what a loss result can be, with the range of the route sums and what an interpolated value is. -/
theorem lossStaysBetweenTheSums : Obligations.LossStaysBetweenTheSums := by
  intro t r freq
  have hsum (n : Fin 32) (i : Fin 8) := Set.mem_Icc.mp (routeSum_value_mem_Icc t r n i)
  obtain ⟨flag, hx, rfl | rfl | rfl⟩ | ⟨n, g, hn, hg, hx⟩ := lossResult_cases t r freq
  · simpa [hx] using hsum
  · simpa [hx] using hsum
  · simpa [hx] using hsum
  · generalize lossResult t r freq = x at hx
    cases hx with
    | below =>
      obtain ⟨hlow, hhigh⟩ := hsum n 0
      exact ⟨hhigh, hlow, fun _ => ⟨n, hn, rfl⟩, nofun, nofun, by simp, hsum⟩
    | above =>
      obtain ⟨hlow, hhigh⟩ := hsum n 7
      exact ⟨hhigh, hlow, nofun, fun _ => ⟨n, hn, rfl⟩, nofun, by simp, hsum⟩
    | inside low high =>
      obtain ⟨hbegin, hend⟩ := intervalOf_brackets low high
      obtain ⟨hmem, q, hq, hnear, htie⟩ := interpolate_spec (routeSum t r n (intervalOf g freq).castSucc).value
        (routeSum t r n (intervalOf g freq).succ).value hbegin hend
      have hrange := Set.uIcc_subset_Icc (routeSum_value_mem_Icc t r n _) (routeSum_value_mem_Icc t r n _) hmem
      refine ⟨hrange.2, hrange.1, nofun, nofun, fun _ => ⟨n, g, hn, hg, intervalOf g freq, hbegin, hend, ?_⟩, by simp, hsum⟩
      exact ⟨hmem.1, hmem.2, q, hq, hnear, htie⟩

end Sys2Proof.Machine
end

section
/-! PROOF. The rows that a loss reads, and what a route record lists (R12 to R14, R28, R29, R39; O55). -/

namespace Sys2Proof.Machine

/-! ## The rows that a loss reads -/

theorem hopRows_congr {t t' : Tbs} {es : List (Elem × Pos)} {ls : List (Fin 160)}
    (links : ∀ l ∈ ls, t'.linkRow l = t.linkRow l) (elems : ∀ e p, (e, p) ∈ es → t'.elementRow e p = t.elementRow e p) :
    hopRows t' es ls = hopRows t es ls := by
  induction es generalizing ls with
  | nil => rfl
  | cons x es ih =>
    obtain ⟨e, p⟩ := x
    have hhead : t'.elementRow e p = t.elementRow e p := elems e p List.mem_cons_self
    have hlink : (ls.take 1).map t'.linkRow = (ls.take 1).map t.linkRow :=
      List.map_congr_left fun l hl => links l (List.mem_of_mem_take hl)
    have htail : hopRows t' es (ls.drop 1) = hopRows t es (ls.drop 1) :=
      ih (fun l hl => links l (List.mem_of_mem_drop hl)) (fun e p h => elems e p (List.mem_cons_of_mem _ h))
    rw [hopRows, hopRows, hhead, hlink, htail]

theorem routeRows_congr {t t' : Tbs} {r : RouteRec} {x : Fin 32} (links : ∀ l ∈ r.links, t'.linkRow l = t.linkRow l)
    (elems : ∀ e p, (e, p) ∈ r.elems → t'.elementRow e p = t.elementRow e p) (tcorr : t'.tcorr[x] = t.tcorr[x]) :
    routeRows t' r x = routeRows t r x := by
  have hfirst : (r.links.take 1).map t'.linkRow = (r.links.take 1).map t.linkRow :=
    List.map_congr_left fun l hl => links l (List.mem_of_mem_take hl)
  have hhops : hopRows t' r.elems (r.links.drop 1) = hopRows t r.elems (r.links.drop 1) :=
    hopRows_congr (fun l hl => links l (List.mem_of_mem_drop hl)) elems
  rw [routeRows, routeRows, hfirst, hhops, tcorr]

/-- Of the tables, a loss reads the grid and the rows that it adds. -/
theorem lossResult_congr {t t' : Tbs} {r : RouteRec} {freq : Nat} (grid : t'.grid = t.grid)
    (rows : ∀ x, r.outcome = .terminal x → routeRows t' r x = routeRows t r x) :
    lossResult t' r freq = lossResult t r freq := by
  unfold lossResult
  split
  · next x hx => simp only [routeSat, routeSum, grid, rows x hx]
  all_goals rfl

/-! ## The elements that a route lists (R13) -/

/-- The element is fitted and stands, out of transit, at the position. -/
def StandsAt (t : Tbs) (c : Csd) (e : Elem) (p : Pos) : Prop :=
  (∃ k, t.elements[e] = .fitted k) ∧ c.pulses[e] = none ∧ c.recorded[e] = some p

theorem Csd.walkPosition_eq_some_iff {c : Csd} {e : Elem} {p : Pos} :
    c.walkPosition e = some p ↔ c.pulses[e] = none ∧ c.recorded[e] = some p := by
  unfold Csd.walkPosition Csd.inTransit
  cases c.pulses[e] <;> simp

theorem Tbs.outside_eq_false_iff {t : Tbs} {e : Elem} : t.outside e = false ↔ ∃ k, t.elements[e] = .fitted k := by
  unfold Tbs.outside
  split <;> simp [*]

theorem plainAtCommon_standsAt {t : Tbs} {c : Csd} {e : Elem} {p : Pos} {onto : Node}
    (h : plainAtCommon t c e = .pass p onto) : StandsAt t c e p := by
  unfold plainAtCommon at h
  split at h
  · cases h
  · next hin =>
    split at h
    · cases h
    · next q hq =>
      split at h
      · cases h
      · cases h
        exact ⟨Tbs.outside_eq_false_iff.mp (Bool.eq_false_of_not_eq_true hin), Csd.walkPosition_eq_some_iff.mp hq⟩

theorem plainAtThrow_standsAt {t : Tbs} {c : Csd} {e : Elem} {k p : Pos} {onto : Node}
    (h : plainAtThrow t c e k = .pass p onto) : StandsAt t c e p := by
  unfold plainAtThrow at h
  split at h
  · cases h
  · next hin =>
    split at h
    · cases h
    · next q hq =>
      split at h
      · cases h
        exact ⟨Tbs.outside_eq_false_iff.mp (Bool.eq_false_of_not_eq_true hin), Csd.walkPosition_eq_some_iff.mp hq⟩
      · cases h

/-- Whatever the topology, a walk lists an element only where it stands. -/
theorem plainWalk_elems_standsAt {t : Tbs} {c : Csd} {src : Fin 8} {fuel : Nat} {n : Node} {ls : List (Fin 160)}
    {es : List (Elem × Pos)} (h : ∀ x ∈ es, StandsAt t c x.1 x.2) :
    ∀ x ∈ (plainWalk t c src fuel n ls es).elems, StandsAt t c x.1 x.2 := by
  induction fuel generalizing n ls es with
  | zero => exact h
  | succ fuel ih =>
    have passed {e : Elem} {p : Pos} (he : StandsAt t c e p) : ∀ x ∈ es ++ [(e, p)], StandsAt t c x.1 x.2 := by
      simpa [or_imp, forall_and, he] using h
    unfold plainWalk
    split
    · exact h
    · split
      · exact h
      · exact h
      · split
        · exact h
        · next hpass => exact ih (passed (plainAtCommon_standsAt hpass))
      · split
        · exact h
        · next hpass => exact ih (passed (plainAtThrow_standsAt hpass))

/-! ## No element and no link twice -/

/-- A link joins only the two nodes that it leads between. -/
theorem Tbs.follow_same_link {t : Tbs} {v w n m : Node} {i : Fin 160} (hv : t.follow v = some (i, w))
    (hn : t.follow n = some (i, m)) : n = v ∨ n = w := by
  obtain ⟨l, hl, hvw⟩ := Tbs.link_of_follow hv
  obtain ⟨k, hk, hnm⟩ := Tbs.link_of_follow hn
  obtain rfl : l = k := Option.some.inj (hl.symm.trans hk)
  obtain ⟨rfl, rfl⟩ | ⟨rfl, rfl⟩ := LinkRec.otherEnd_eq_some hvw <;>
    obtain ⟨rfl, -⟩ | ⟨rfl, -⟩ := LinkRec.otherEnd_eq_some hnm <;> simp

/-- The link leads from a node of the walk that stands on `n`, another than `n`. -/
def LinkBehind (t : Tbs) (c : Csd) (src : Fin 8) (passed : List Elem) (n : Node) (i : Fin 160) : Prop :=
  ∃ v w, OnRoute c src passed v ∧ v ≠ n ∧ t.follow v = some (i, w)

theorem WalkFront.link_not_behind {t : Tbs} {c : Csd} {src : Fin 8} {passed : List Elem} {n m : Node} {i : Fin 160}
    (front : WalkFront t c src passed n) (h : t.follow n = some (i, m)) : ¬ LinkBehind t c src passed n i := by
  rintro ⟨v, w, hv, hne, hvw⟩
  obtain rfl | rfl := Tbs.follow_same_link hvw h
  · exact hne rfl
  · exact (front.closed v _ i hv hne hvw).2 rfl

/-- A walk that passes an element leaves the nodes behind it. -/
theorem OnRoute.ne_of_pass {c : Csd} {src : Fin 8} {passed : List Elem} {m onto v : Node} {e : Elem} {p : Pos}
    (hv : OnRoute c src passed v) (hpass : PassesElement c e p m onto) (hnew : e ∉ passed) : v ≠ onto := by
  rintro rfl
  exact hnew ((hpass.joinedBy_iff.mpr (.inr rfl)).onRoute_iff.mp hv)

/-- In a valid topology a walk lists no element and no link twice: the next element is none of those passed, and the next link
none of those behind. -/
theorem plainWalk_nodup {t : Tbs} {c : Csd} {src : Fin 8} {fuel : Nat} {n : Node} {ls : List (Fin 160)}
    {es : List (Elem × Pos)} (valid : t.failingLink = none) (sound : LinksSound t)
    (front : WalkFront t c src (es.map Prod.fst).reverse n)
    (behind : ∀ i ∈ ls, LinkBehind t c src (es.map Prod.fst).reverse n i) (elems : (es.map Prod.fst).Nodup) (links : ls.Nodup) :
    ((plainWalk t c src fuel n ls es).elems.map Prod.fst).Nodup ∧ (plainWalk t c src fuel n ls es).links.Nodup := by
  induction fuel generalizing n ls es with
  | zero => exact ⟨elems, links⟩
  | succ fuel ih =>
    obtain ⟨-, hend⟩ | ⟨i, m, hf, hmove⟩ := plainWalk_succ_cases t c src fuel n ls es
    · rw [hend]
      exact ⟨elems, links⟩
    · have links' : (ls ++ [i]).Nodup := by
        rw [← List.concat_eq_append]
        exact links.concat fun hi => front.link_not_behind hf (behind i hi)
      obtain ⟨o, hend, -⟩ | ⟨e, p, onto, hpass, hnext⟩ := hmove
      · rw [hend]
        exact ⟨elems, links'⟩
      · have hnew : e ∉ (es.map Prod.fst).reverse := front.not_passed valid sound hf hpass
        have hpassed : ((es ++ [(e, p)]).map Prod.fst).reverse = e :: (es.map Prod.fst).reverse := by simp
        have elems' : ((es ++ [(e, p)]).map Prod.fst).Nodup := by
          rw [← List.nodup_reverse, hpassed]
          exact List.nodup_cons.mpr ⟨hnew, List.nodup_reverse.mpr elems⟩
        rw [hnext]
        refine ih (hpassed ▸ front.pass valid sound hf hpass) ?_ elems' links'
        rw [hpassed]
        intro j hj
        obtain hj | hj := List.mem_append.mp hj
        · obtain ⟨v, w, hv, -, hvw⟩ := behind j hj
          exact ⟨v, w, onRoute_cons.mpr (.inl hv), hv.ne_of_pass hpass hnew, hvw⟩
        · obtain rfl := List.mem_singleton.mp hj
          exact ⟨n, m, onRoute_cons.mpr (.inl front.on), front.on.ne_of_pass hpass hnew, hf⟩

/-- Settles O55: the rows added are those of the route's own links, elements and terminal; the walk keeps `WalkFront`. -/
theorem lossReadsOnlyItsRows : Obligations.LossReadsOnlyItsRows := by
  refine ⟨fun t t' r freq grid links elems tcorr => ?_, fun t c src valid sound => ?_⟩
  · exact lossResult_congr grid fun x hx => routeRows_congr links elems (tcorr x hx)
  · obtain ⟨elems, links⟩ := plainWalk_nodup (fuel := 49) valid sound (es := []) (ls := []) (WalkFront.start t c src)
      (by simp) .nil .nil
    exact ⟨elems, links, fun e p h => plainWalk_elems_standsAt (by simp) (e, p) h⟩

end Sys2Proof.Machine
end

section
/-! SUPPORT. When the front of the Forward Queue stays still through an event's own effect: each standing condition of Safety.lean
carries over to a state that keeps what it speaks of. -/

namespace Sys2Proof.Machine

/-- What decides whether the front is still stands: the Forward Queue, the state of Port B's link, the agent. -/
structure SameFront (s t : State) : Prop where
  queue : t.fwq.queue = s.fwq.queue
  link : t.lnk.b.link = s.lnk.b.link
  agent : t.mga = s.mga
  held : t.rtq.responseHeld = s.rtq.responseHeld

theorem SameFront.headQuiet {s t : State} (h : SameFront s t) (q : s.headQuiet) : t.headQuiet := by
  unfold State.headQuiet
  rwa [h.queue]

theorem SameFront.agentBusy {s t : State} (h : SameFront s t) (q : s.agentBusy) : t.agentBusy := by
  unfold State.agentBusy
  rwa [h.agent, h.held]

theorem SameFront.headFirm {s t : State} (h : SameFront s t) (q : s.headFirm) : t.headFirm := by
  unfold State.headFirm State.headQuiet
  rwa [h.queue, h.link]

theorem SameFront.frontFirm {s t : State} (h : SameFront s t) (q : s.frontFirm) : t.frontFirm :=
  q.imp h.headFirm h.agentBusy

/-- A front that is not still by a step frame's wait alone is still where the wait goes on. -/
theorem SameFront.frontStill {s t : State} (h : SameFront s t) (waits : s.stepWaits → t.stepWaits) (q : s.frontStill) :
    t.frontStill := by
  refine q.imp h.headQuiet (Or.imp h.agentBusy (Or.imp ?_ waits))
  rw [h.queue, h.link]
  exact id

/-- A step frame goes on waiting where the frame, the mode and the strap stand and R49 still bars it. -/
theorem SameFront.stepWaits {s t : State} (h : SameFront s t) (mode : t.mdc.mode = s.mdc.mode)
    (addr : t.lnk.addr = s.lnk.addr) (barred : ∀ f, s.stepBarred f → t.stepBarred f) (q : s.stepWaits) : t.stepWaits := by
  obtain ⟨run, addressed, x, l, head, waiting, step, b⟩ := q
  exact ⟨mode.trans run, by rw [Lnk.transparent, addr]; exact addressed, x, l, h.queue.trans head, waiting, step, barred _ b⟩

/-- A firm head is still. -/
theorem State.headFirm.still {s : State} (q : s.headFirm) : s.frontStill := by
  rcases q with q | ⟨link, x, l, head, status⟩
  · exact .inl q
  · refine .inr (.inr (.inl ⟨x, l, head, ?_⟩))
    cases hx : x.status with
    | waiting => exact absurd hx status
    | held => exact .inl rfl
    | released => exact .inr ⟨rfl, link⟩

/-- A firm front is still. -/
theorem State.frontFirm.still {s : State} (q : s.frontFirm) : s.frontStill :=
  q.elim State.headFirm.still fun b => .inr (.inl b)

/-- While the engine holds a step, R49 bars a frame by the latch list, by CHECKING, or as one that may not preempt. -/
theorem stepBarred_of_holdsStep {s t : State} {f : Frame} (holds : s.ste.holdsStep = true) (holds' : t.ste.holdsStep = true)
    (checking : s.ste.st = .checking → t.ste.st = .checking) (latch : s.csd.latch ≠ [] → t.csd.latch ≠ [])
    (report : s.reportBarred → t.reportBarred) (b : s.stepBarred f) : t.stepBarred f := by
  rcases b with b | b | ⟨-, b⟩ | ⟨b, -⟩
  · exact .inl (latch b)
  · exact .inr (.inl (checking b))
  · exact .inr (.inr (.inl ⟨holds', b.imp_right report⟩))
  · rw [Ste.holdsStep, b] at holds
    cases holds

/-- Where the Step Engine, the latch list and the report outbox's bar stand, R49 bars the same frames. -/
theorem stepBarred_of_same {s t : State} {f : Frame} (ste : t.ste.st = s.ste.st ∧ t.ste.report = s.ste.report)
    (latch : s.csd.latch ≠ [] → t.csd.latch ≠ []) (report : s.reportBarred → t.reportBarred) (b : s.stepBarred f) :
    t.stepBarred f := by
  unfold State.stepBarred Ste.holdsStep at b ⊢
  rw [ste.1, ste.2]
  exact b.imp latch (Or.imp_right (Or.imp (And.imp_right (Or.imp_right report)) (And.imp_right (Or.imp_right report))))

/-- The report outbox stays occupied where the Return Queue, the hold margin and the outbox stand. -/
theorem reportBarred_of_same {s t : State} (queue : t.rtq.queue = s.rtq.queue) (margin : t.lnk.margin = s.lnk.margin)
    (report : t.rtq.report = s.rtq.report) (b : s.reportBarred) : t.reportBarred := by
  unfold State.reportBarred
  rwa [queue, margin, report]

/-! ## Drawing the consequences -/

/-- Nothing moves where nothing is about to launch, however many consequences are drawn. -/
theorem settle_still (n : Nat) (s : State) (q : s.frontStill) (c : s.calm) : Still s (settle n s) :=
  (settle_keeps (P := fun s => s.frontStill ∧ s.calm) (R := Still) Still.refl (fun _ _ _ => Still.trans)
    (fun _ _ p h =>
      have k := react_still p.1 p.2 h
      ⟨⟨(react_kept p.1 h).still p.1, k.calm p.2⟩, k⟩) n s ⟨q, c⟩).2

/-- After an event's own effect that makes a launch pass due, the pass comes first where no evaluation restarts and the Verify Unit
takes nothing (R73). -/
theorem settled_keptAfterPass {t : State} (q : t.frontStill) (due : t.csd.passDue = true) : KeptAfterPass t (settled t) := by
  refine ⟨(settled_kept t q).2, fun restart verify => ?_⟩
  have pass : react t = some (launchPass t) := by simp [react, restart, makePass, due, verify]
  have first : settled t = settle 4095 (launchPass t) := by
    unfold settled Config.settleFuel
    rw [settle, pass]
  rw [first]
  exact (settle_kept _ _ ((launchPass_kept t).still q)).2

/-- A reaction of a calm part with a still front: no pass is made, no safe drive completes, and no frame is examined but a released
head at the chain end. -/
theorem react_calm_cases {s t : State} (q : s.frontStill) (c : s.calm) (h : react s = some t) :
    restartEvaluation s = some t ∨ (∃ v, verifyAction s = some v ∧ (t = v ∨ t = v.chose)) ∨ endHold s = some t ∨
      offerAnswer s = some t ∨ offerReport s = some t ∨ (∃ v, dealAtChainEnd s = some v ∧ (t = v ∨ t = v.chose)) ∨
      admissionPass s = some t ∨ startTxB s = some t ∨ startTxA s = some t := by
  have examined : ∀ {v}, examineHead s = some v → dealAtChainEnd s = some v := examineHead_still q
  rcases react_cases h with h | h | h | h | h | h | h | h | h | h | h
  · exact .inl h
  · simp [makePass, c.1] at h
  · refine .inr ?_
    unfold chooseVerify at h
    split at h
    · cases h
    · next v hv _ => exact .inl ⟨v, hv, .inl (Option.some.inj h).symm⟩
    · next v x hv hx =>
      split at h
      · split at h
        · exact .inl ⟨v, hv, .inr (Option.some.inj h).symm⟩
        · exact .inr (.inr (.inr (.inr (.inl ⟨x, examined hx, .inr (Option.some.inj h).symm⟩))))
      · exact .inl ⟨v, hv, .inl (Option.some.inj h).symm⟩
  · simp [completeSafe, c.2] at h
  · exact .inr (.inr (.inl h))
  · exact .inr (.inr (.inr (.inl h)))
  · exact .inr (.inr (.inr (.inr (.inl h))))
  · exact .inr (.inr (.inr (.inr (.inr (.inl ⟨t, examined h, .inl rfl⟩)))))
  · exact .inr (.inr (.inr (.inr (.inr (.inr (.inl h))))))
  · exact .inr (.inr (.inr (.inr (.inr (.inr (.inr (.inl h)))))))
  · exact .inr (.inr (.inr (.inr (.inr (.inr (.inr (.inr h)))))))

/-- Whether an evaluation restarts depends on its snapshot, the tables and the Coil Scheduler alone (R23). -/
theorem restartEvaluation_eq_none_iff {s : State} : restartEvaluation s = none ↔
    ∀ v, s.rev.evaluation = some v → ∀ e : Elem, ∀ p ∈ possible s.tbs s.csd e, p ∈ v.sets[e] := by
  unfold restartEvaluation Evaluation.outdated
  cases s.rev.evaluation <;> simp [allElems]

theorem mem_addTarget {l : List Pos} {q : Option Pos} {p : Pos} : p ∈ addTarget l q ↔ p ∈ l ∨ q = some p := by
  cases q with
  | none => simp [addTarget]
  | some q =>
    have all : p ∈ allPos := List.mem_finRange p
    simp only [addTarget, List.mem_filter, all, true_and, Bool.or_eq_true, List.contains_iff_mem, beq_iff_eq,
      Option.some.injEq]
    exact or_congr_right eq_comm

/-- An evaluation that begins at a state takes in every possible position of its table, and the changing set's targets (R16). -/
theorem mem_snapshotSets {s : State} {e : Elem} {p : Pos} :
    p ∈ (snapshotSets s)[e] ↔ p ∈ possible s.tbs s.csd e ∨ s.ste.changing[e] = some p := by
  simp [snapshotSets, mem_addTarget]

theorem react_rev {s t : State} (q : s.frontStill) (c : s.calm) (fresh : restartEvaluation s = none) (h : react s = some t) :
    t.rev = s.rev := by
  obtain hr | ⟨v, hv, rfl | rfl⟩ | he | ha | ho | ⟨v, hv, rfl | rfl⟩ | hp | hb | ha := react_calm_cases q c h
  · rw [fresh] at hr; cases hr
  · simp [verifyAction_frame s hv]
  · simp [verifyAction_frame s hv]
  · simp [endHold_frame s he]
  · simp [offerAnswer_frame s ha]
  · simp [offerReport_frame s ho]
  · simp [dealAtChainEnd_frame s hv]
  · simp [dealAtChainEnd_frame s hv]
  · simp [admissionPass_frame s hp]
  · simp [startTxB_frame s hb]
  · simp [startTxA_frame s ha]

/-- An evaluation whose snapshot holds every possible position goes on, where no element moves (R23). -/
theorem settle_rev (n : Nat) (s : State) (q : s.frontStill) (c : s.calm) (fresh : restartEvaluation s = none) :
    (settle n s).rev = s.rev := by
  have step : ∀ s t, (s.frontStill ∧ s.calm ∧ restartEvaluation s = none) → react s = some t →
      (t.frontStill ∧ t.calm ∧ restartEvaluation t = none) ∧ t.rev = s.rev := by
    rintro s t ⟨q, c, fresh⟩ h
    have still := react_still q c h
    have rev := react_rev q c fresh h
    refine ⟨⟨(react_kept q h).still q, still.calm c, ?_⟩, rev⟩
    rw [restartEvaluation_eq_none_iff] at fresh ⊢
    rwa [rev, still.tables, still.coil]
  exact (settle_keeps (R := fun s t => t.rev = s.rev) (fun _ => rfl) (fun _ _ _ h g => g.trans h) step n s ⟨q, c, fresh⟩).2

end Sys2Proof.Machine
end

section
/-! SUPPORT. How the head of the Forward Queue is released, case by case (R53, R58, R59, R139, R141, R142). -/

namespace Sys2Proof.Machine

@[simp] theorem departFwd_queue (s : State) : (departFwd s).fwq.queue = s.fwq.queue.tail := by
  obtain ⟨m, w, l, -, h⟩ := compareFwd_eq { s with fwq.queue := s.fwq.queue.tail }
  rw [departFwd, h]

@[simp] theorem setHead_queue (x : FwdEntry) (s : State) : (setHead x s).fwq.queue = x :: s.fwq.queue.tail := rfl

@[simp] theorem Frame.stamp_isStep (f : Frame) (n : Nat) : (f.stamp n).isStep = f.isStep := by
  simp [Frame.isStep, Frame.stamp]

/-- With Port B's link UP a released head stays, to be sent. -/
theorem releaseHead_up {s : State} (up : s.lnk.b.link = .up) (x : FwdEntry) :
    releaseHead x s = setHead { x with status := .released } s := by
  simp [releaseHead, dealAtChainEnd, up]

/-- At the chain end a step frame waits for an occupied echo outbox (R142). -/
theorem releaseHead_waits {s : State} {x : FwdEntry} (down : s.lnk.b.link = .down) (step : x.frame.isStep = true)
    (addressed : s.lnk.transparent = false) (echo : s.rtq.echo ≠ none) :
    releaseHead x s = setHead { x with status := .released } s := by
  simp [releaseHead, dealAtChainEnd, down, step, addressed, echo]

/-- At the chain end of an addressed node a step frame becomes an echo, where the echo outbox is empty (R142). -/
theorem releaseHead_echo {s : State} {x : FwdEntry} (down : s.lnk.b.link = .down) (step : x.frame.isStep = true)
    (addressed : s.lnk.transparent = false) (echo : s.rtq.echo = none) :
    (releaseHead x s).fwq.queue = s.fwq.queue.tail ∧ (releaseHead x s).rtq.echo = some (echoOf s.lnk x.frame) := by
  simp [releaseHead, dealAtChainEnd, down, step, addressed, echo]

/-- At the chain end any other frame is discarded and counted (R141). -/
theorem releaseHead_discard {s : State} {x : FwdEntry} (down : s.lnk.b.link = .down)
    (other : x.frame.isStep = false ∨ s.lnk.transparent = true) :
    (releaseHead x s).fwq.queue = s.fwq.queue.tail ∧ (releaseHead x s).lnk.endDiscards = countUp s.lnk.endDiscards := by
  have no : (x.frame.isStep && !s.lnk.transparent) = false := by rcases other with h | h <;> simp [h]
  simp [releaseHead, dealAtChainEnd, down, no, countEndDiscard]

/-- A released head stands released in its place, or has left it at the chain end. -/
theorem releaseHead_queue (x : FwdEntry) (s : State) :
    (releaseHead x s).fwq.queue = { x with status := .released } :: s.fwq.queue.tail ∨
      (s.lnk.b.link = .down ∧ (releaseHead x s).fwq.queue = s.fwq.queue.tail) := by
  cases link : s.lnk.b.link with
  | up => exact .inl (by rw [releaseHead_up link]; rfl)
  | down =>
    by_cases echoed : x.frame.isStep = true ∧ s.lnk.transparent = false
    · by_cases echo : s.rtq.echo = none
      · exact .inr ⟨rfl, (releaseHead_echo link echoed.1 echoed.2 echo).1⟩
      · exact .inl (by rw [releaseHead_waits link echoed.1 echoed.2 echo]; rfl)
    · refine .inr ⟨rfl, (releaseHead_discard link ?_).1⟩
      simpa [imp_iff_not_or] using echoed

/-! ## The frame in the Step Engine's charge (R53, R58) -/

/-- The engine releases the frame in its charge. -/
theorem releaseHeld_of_held {s : State} {x : FwdEntry} {rest : List FwdEntry} (head : s.fwq.queue = x :: rest)
    (held : x.status = .held) (n : Nat) :
    releaseHeld n s = releaseHead { x with frame := x.frame.stamp n, own := true } s := by
  simp [releaseHeld, head, held]

/-- Without a frame in its charge the engine releases none. -/
theorem releaseHeld_of_not_held {s : State} (free : ∀ x ∈ s.fwq.queue.head?, x.status ≠ .held) (n : Nat) :
    releaseHeld n s = s := by
  unfold releaseHeld
  split
  · next x rest head => exact if_neg (free x (by simp [head]))
  · rfl

/-- A firm head stays firm when the engine releases the frame in its charge: at the chain end no frame waits behind it. -/
theorem releaseHeld_headFirm {s : State} (n : Nat) (q : s.headFirm) : (releaseHeld n s).headFirm := by
  by_cases free : ∀ x ∈ s.fwq.queue.head?, x.status ≠ .held
  · rwa [releaseHeld_of_not_held free]
  · push Not at free
    obtain ⟨x, hx, held⟩ := free
    obtain ⟨rest, head⟩ := List.head?_eq_some_iff.mp hx
    rw [releaseHeld_of_held head held]
    rcases q with q | ⟨link, -⟩
    · refine .inl fun y hy => ?_
      rcases releaseHead_queue { x with frame := x.frame.stamp n, own := true } s with h | ⟨-, h⟩
      · rw [h, head, List.mem_cons] at hy
        rcases hy with rfl | hy
        · simp
        · exact q y (by rw [head]; exact .tail _ hy)
      · rw [h, head] at hy
        exact q y (by rw [head]; exact .tail _ hy)
    · rw [releaseHead_up link]
      exact .inr ⟨link, _, _, rfl, by simp⟩

theorem releaseHeld_frontFirm {s : State} (n : Nat) (q : s.frontFirm) : (releaseHeld n s).frontFirm :=
  q.imp (releaseHeld_headFirm n) fun b => by unfold State.agentBusy at b ⊢; simpa using b

end Sys2Proof.Machine
end

section
/-! SUPPORT. What the report and the end of a step leave (R57 to R62): first in the event's own effect, then, as `ReportOffered` and
`Ended` say, when the consequences of the event are drawn. -/

namespace Sys2Proof.Machine

/-! ## Reports (R60 to R62) -/

@[simp] theorem enterIdle_ste (s : State) : (enterIdle s).ste =
    { s.ste with
      st := .idle, ident := none, snapshot := none, changing := Targets.none, landed := Vector.replicate 48 false } := by
  obtain ⟨l, m, h⟩ := enterIdle_eq s
  rw [h]

/-- The report of a step that has ended, from what the engine holds of it (R60). -/
abbrev State.stepReport (s : State) (i : StepIdent) (o : StepOutcome) (entries : List RouteEntry) : Frame :=
  reportFrame s.lnk i.tag i.index o s.ste.hot s.ste.wearFlag s.ste.elapsed entries

/-- The state with a report built and pending, and the ROUTE table that its entries make (R61, R62). -/
def State.withReport (s : State) (f : Frame) (entries : List RouteEntry) : State :=
  { s with ste.report := some f, ste.routes := routeTable entries }

section
variable {s : State} {i : StepIdent} {o : StepOutcome} (entries : List RouteEntry)

theorem buildReport_eq (ident : s.ste.ident = some i) (outcome : s.ste.outcome = some o) (reports : o ≠ .noPath) :
    buildReport entries s = (offerReport (s.withReport (s.stepReport i o entries) entries)).getD
      (s.withReport (s.stepReport i o entries) entries) := by
  unfold buildReport
  rw [ident, outcome]
  cases o with
  | noPath => exact absurd rfl reports
  | _ => rfl

/-- In REPORT_WAIT a report enters an empty report outbox, and the engine enters IDLE (R61). -/
theorem buildReport_placed (ident : s.ste.ident = some i) (outcome : s.ste.outcome = some o) (reports : o ≠ .noPath)
    (wait : s.ste.st = .reportWait) (outbox : s.rtq.report = none) :
    buildReport entries s = enterIdle { s with
      ste.report := none, ste.routes := routeTable entries, rtq.report := some (s.stepReport i o entries) } := by
  rw [buildReport_eq entries ident outcome reports]
  simp [offerReport, State.withReport, wait, outbox]

/-- Any other report stays pending (R61). -/
theorem buildReport_pending (ident : s.ste.ident = some i) (outcome : s.ste.outcome = some o) (reports : o ≠ .noPath)
    (barred : s.ste.st ≠ .reportWait ∨ s.rtq.report ≠ none) :
    buildReport entries s = s.withReport (s.stepReport i o entries) entries := by
  rw [buildReport_eq entries ident outcome reports]
  have waits : offerReport (s.withReport (s.stepReport i o entries) entries) = none := by
    unfold offerReport
    split
    · next wait _ outbox => exact absurd outbox (barred.resolve_left (not_not.mpr wait))
    · rfl
  rw [waits]
  rfl

end

/-- Building a report moves the engine to IDLE or nowhere, and leaves what the end of the step has recorded. -/
theorem buildReport_marks (entries : List RouteEntry) (s : State) :
    (buildReport entries s).ste.outcome = s.ste.outcome ∧ (buildReport entries s).ste.elapsed = s.ste.elapsed ∧
      (buildReport entries s).ste.grace = s.ste.grace ∧ (buildReport entries s).ste.dwell = s.ste.dwell ∧
      (buildReport entries s).ste.settledMark = s.ste.settledMark ∧ (buildReport entries s).ste.hot = s.ste.hot ∧
      (buildReport entries s).ste.wearFlag = s.ste.wearFlag ∧ (buildReport entries s).ste.serial = s.ste.serial ∧
      (buildReport entries s).rtq = { s.rtq with report := (buildReport entries s).rtq.report } ∧
      ((buildReport entries s).ste.st = s.ste.st ∨ (buildReport entries s).ste.st = .idle) := by
  by_cases reports : ∃ i o, s.ste.ident = some i ∧ s.ste.outcome = some o ∧ o ≠ .noPath
  · obtain ⟨i, o, ident, outcome, reports⟩ := reports
    by_cases room : s.ste.st = .reportWait ∧ s.rtq.report = none
    · simp [buildReport_placed entries ident outcome reports room.1 room.2]
    · simp [buildReport_pending entries ident outcome reports (not_and_or.mp room), State.withReport]
  · have same : buildReport entries s = s := by
      unfold buildReport
      split
      · rfl
      · next i o other ident outcome => exact absurd ⟨i, o, ident, outcome, other⟩ reports
      · rfl
    simp [same]

theorem routeTable_nil : routeTable [] = Vector.replicate 8 none := by
  ext i hi
  simp [routeTable]

/-- An engine at rest stays so when the consequences are drawn. -/
theorem State.Rests.kept {t u : State} (r : t.Rests) (k : KeptMatrix t u) : u.Rests := by
  have busy : t.ste.st ≠ .reportWait := by rw [r.state]; decide
  have st : u.ste.st = t.ste.st := k.engine.resolve_right fun w => busy w.1
  refine r.of (k.step (.inl busy)) st k.clock (by rw [k.tables]) fun m => ?_
  rcases k.mode with mode | mode
  · rwa [← mode]
  · rw [mode.1]; rfl

/-- What becomes of a report that is built in REPORT_WAIT (R61). -/
theorem reportOffered_of_kept {s u : State} {i : StepIdent} {o : StepOutcome} {entries : List RouteEntry}
    (ident : s.ste.ident = some i) (outcome : s.ste.outcome = some o) (reports : o ≠ .noPath) (wait : s.ste.st = .reportWait)
    (k : Kept (buildReport entries s) u) :
    ReportOffered s (s.stepReport i o entries) u ∧ u.ste.routes = routeTable entries := by
  by_cases outbox : s.rtq.report = none
  · rw [buildReport_placed entries ident outcome reports wait outbox] at k
    have stands := (k.2.step (.inl (by simp))).step
    refine ⟨⟨k.1.reports _ (.inr (.inl (by simp))), fun _ => ⟨(enterIdle_rests _).kept k.2, ?_⟩, fun b => absurd outbox b.1⟩, ?_⟩
    · simpa using stands.2.2.2.2
    · simpa using k.2.marked.2.1
  · rw [buildReport_pending entries ident outcome reports (.inr outbox)] at k
    refine ⟨⟨k.1.reports _ (.inl rfl), fun e => absurd e outbox, fun b => ?_⟩, k.2.marked.2.1⟩
    have barred := k.1.barred (reportBarred_of_same (s := s) rfl rfl rfl b)
    obtain ⟨ident, snapshot, changing, -, report⟩ := (k.2.step (.inr (barred.2 wait))).step
    exact ⟨barred.2 wait, report, barred.1, ident, snapshot, changing⟩

end Sys2Proof.Machine
end

section
/-! SUPPORT. The end of a step (R57 to R62): what its own effect leaves, and that it leaves what `Ended` says when the consequences of
the event are drawn. -/

namespace Sys2Proof.Machine

/-! ## The record of the end (R58) -/

theorem Flag.bit_lt (f : Flag) : f.bit < 16 := by
  cases f with
  | mismatch b => exact b.isLt.trans (by decide)
  | _ => decide

/-- A signalled flag is latched (R168, R169). -/
theorem signal_isLatched (f : Flag) (s : State) : (signal f s).isLatched f = true := by
  unfold signal latchFlag
  split
  · next latched => simpa [State.isLatched] using latched
  · simp [State.isLatched, Flag.set, f.bit_lt]

/-- A flag that is no trip flag changes nothing of the Mode Controller (R174). -/
theorem signal_mdc {f : Flag} (noTrip : f.trip = none) (s : State) : (signal f s).mdc = s.mdc :=
  (signal_passed f s noTrip).mdc

/-- The record that the end of a step makes: outcome, elapsed time and settled mark, its timers and evaluation stopped. -/
def markEnd (o : StepOutcome) (s : State) : State :=
  { recordEnd o s with ste.settledMark := o.isSettled || s.ste.settledMark }

/-- The end of a step before the engine's frame is released: recorded, and signalled where it is a fault. -/
def recordOutcome (o : StepOutcome) (s : State) : State :=
  if 3 ≤ o.severity then signal .stepFault (markEnd o s) else markEnd o s

theorem endStep_eq (o : StepOutcome) (s : State) :
    endStep o s = finishStep o (releaseHeld o.severity (recordOutcome o s)) := by
  have marked : (if o.isSettled then { recordEnd o s with ste.settledMark := true } else recordEnd o s) = markEnd o s := by
    unfold markEnd
    cases o.isSettled <;> rfl
  unfold endStep recordOutcome
  dsimp only
  rw [marked]

theorem recordOutcome_ste (o : StepOutcome) (s : State) : (recordOutcome o s).ste = { s.ste with
    grace := none, dwell := none, outcome := some o, elapsed := min (s.now - s.ste.takeAt) Config.elapsedCap,
    settledMark := o.isSettled || s.ste.settledMark } := by
  unfold recordOutcome
  split <;> simp [markEnd, recordEnd]

theorem recordOutcome_rev (o : StepOutcome) (s : State) :
    (recordOutcome o s).rev = { s.rev with evaluation := none } := by
  unfold recordOutcome
  split <;> simp [markEnd, recordEnd]

theorem recordOutcome_rtq (o : StepOutcome) (s : State) :
    (recordOutcome o s).rtq.queue = s.rtq.queue ∧ (recordOutcome o s).rtq.responseHeld = s.rtq.responseHeld ∧
      (recordOutcome o s).rtq.echo = s.rtq.echo ∧ (recordOutcome o s).rtq.report = s.rtq.report := by
  unfold recordOutcome
  split <;> simp [markEnd]

theorem recordOutcome_mdc (o : StepOutcome) (s : State) : (recordOutcome o s).mdc = s.mdc := by
  unfold recordOutcome
  split
  · exact signal_mdc rfl _
  · rfl

@[simp] theorem recordOutcome_frame (o : StepOutcome) (s : State) :
    (recordOutcome o s).now = s.now ∧ (recordOutcome o s).lnk = s.lnk ∧ (recordOutcome o s).fwq = s.fwq ∧
      (recordOutcome o s).mga = s.mga ∧ (recordOutcome o s).tbs = s.tbs ∧ (recordOutcome o s).csd = s.csd ∧
      (recordOutcome o s).vfu = s.vfu ∧ (recordOutcome o s).axu = s.axu := by
  unfold recordOutcome
  split <;> simp [markEnd]

/-- A step that ends without fault latches nothing. -/
theorem recordOutcome_evu {o : StepOutcome} (mild : o.severity < 3) (s : State) : (recordOutcome o s).evu = s.evu := by
  rw [recordOutcome, if_neg (by omega)]
  simp [markEnd]

/-- A step that ends with a fault latches STEP_FAULT (R58). -/
theorem recordOutcome_fault {o : StepOutcome} (fault : 3 ≤ o.severity) (s : State) :
    (recordOutcome o s).isLatched .stepFault = true := by
  rw [recordOutcome, if_pos fault]
  exact signal_isLatched _ _

/-! ## The last step of R58 -/

/-- A step without identity, or a QUIET one, leaves the engine in IDLE. -/
theorem finishStep_quiet {s : State} (quiet : ∀ i, s.ste.ident = some i → i.quiet = true) (o : StepOutcome) :
    finishStep o s = enterIdle s := by
  unfold finishStep
  split
  · rfl
  · next i ident => exact if_pos (quiet i ident)

section
variable {s : State} {o : StepOutcome} {i : StepIdent} (ident : s.ste.ident = some i) (loud : i.quiet = false)
include ident loud

/-- A step that ends unsettled is reported at once. -/
theorem finishStep_unsettled (unsettled : o.isSettled = false) :
    finishStep o s = buildReport [] { s with ste.st := .reportWait } := by
  simp [finishStep, ident, loud, unsettled]

/-- So is a settled one with an empty report list (R61). -/
theorem finishStep_listless {p : PathRec} (settles : o.isSettled = true) (snapshot : s.ste.snapshot = some p)
    (listless : p.report = []) : finishStep o s = buildReport [] { s with ste.st := .reportWait } := by
  simp [finishStep, ident, loud, settles, requestRoutes, snapshot, listless]

/-- Any other settled step makes its route request (R31, R61). -/
theorem finishStep_requested {p : PathRec} (settles : o.isSettled = true) (snapshot : s.ste.snapshot = some p)
    (list : p.report ≠ []) : finishStep o s = { s with
      ste.st := .reportWait,
      rev.route := some { since := s.now, results := p.report.map (routeEntry s.tbs s.csd i.freq) } } := by
  simp [finishStep, ident, loud, settles, requestRoutes, snapshot, list, routeResults]

end

/-- The end of a step takes the engine to IDLE or REPORT_WAIT and leaves what it has recorded. -/
theorem finishStep_marks (o : StepOutcome) (s : State) :
    (finishStep o s).ste.outcome = s.ste.outcome ∧ (finishStep o s).ste.elapsed = s.ste.elapsed ∧
      (finishStep o s).ste.grace = s.ste.grace ∧ (finishStep o s).ste.dwell = s.ste.dwell ∧
      (finishStep o s).ste.settledMark = s.ste.settledMark ∧ (finishStep o s).ste.hot = s.ste.hot ∧
      (finishStep o s).ste.wearFlag = s.ste.wearFlag ∧ (finishStep o s).ste.serial = s.ste.serial ∧
      (finishStep o s).rtq = { s.rtq with report := (finishStep o s).rtq.report } ∧
      (finishStep o s).rev.evaluation = s.rev.evaluation ∧
      ((finishStep o s).ste.st = .idle ∨ (finishStep o s).ste.st = .reportWait) := by
  unfold finishStep
  split
  · simp
  · split
    · simp
    · have built := buildReport_marks [] { s with ste.st := .reportWait }
      dsimp only
      split
      · unfold requestRoutes
        split
        · split
          · simpa [or_comm] using built
          · simp
        · simp
      · simpa [or_comm] using built

end Sys2Proof.Machine
end

section
/-! SUPPORT. The end of a step leaves what `Ended` says (R57 to R62). -/

namespace Sys2Proof.Machine

/-- The state in which the engine prepares its report: the end recorded, the frame in its charge released (R58). -/
def endingAt (o : StepOutcome) (s : State) : State := releaseHeld o.severity (recordOutcome o s)

theorem endingAt_ste (o : StepOutcome) (s : State) : (endingAt o s).ste = { s.ste with
    grace := none, dwell := none, outcome := some o, elapsed := min (s.now - s.ste.takeAt) Config.elapsedCap,
    settledMark := o.isSettled || s.ste.settledMark } := by
  simp [endingAt, recordOutcome_ste]

theorem endStep_eq_finish (o : StepOutcome) (s : State) : endStep o s = finishStep o (endingAt o s) := endStep_eq o s

theorem endingAt_rtq (o : StepOutcome) (s : State) : (endingAt o s).rtq.queue = s.rtq.queue ∧
    (endingAt o s).rtq.responseHeld = s.rtq.responseHeld ∧ (endingAt o s).rtq.report = s.rtq.report := by
  simp [endingAt, recordOutcome_rtq]

@[simp] theorem endingAt_frame (o : StepOutcome) (s : State) :
    (endingAt o s).now = s.now ∧ (endingAt o s).lnk.addr = s.lnk.addr ∧ (endingAt o s).lnk.margin = s.lnk.margin ∧
      (endingAt o s).lnk.b.link = s.lnk.b.link ∧ (endingAt o s).mga = s.mga ∧ (endingAt o s).tbs = s.tbs ∧
      (endingAt o s).csd = s.csd ∧ (endingAt o s).mdc = s.mdc ∧ (endingAt o s).axu = s.axu := by
  simp [endingAt, recordOutcome_mdc]

/-- A front that is firm stays so when the step in progress ends. -/
theorem endStep_frontFirm (o : StepOutcome) {s : State} (q : s.frontFirm) : (endStep o s).frontFirm := by
  have recorded : (recordOutcome o s).frontFirm :=
    SameFront.frontFirm ⟨by simp, by simp, by simp, by simp [recordOutcome_rtq]⟩ q
  have released : (endingAt o s).frontFirm := releaseHeld_frontFirm o.severity recorded
  rw [endStep_eq_finish]
  obtain ⟨-, -, -, -, -, -, -, -, rtq, -⟩ := finishStep_marks o (endingAt o s)
  exact SameFront.frontFirm ⟨by simp, by simp, by simp, by rw [rtq]⟩ released

/-- What a report built at the end of a step becomes. -/
theorem endingAt_reported {s u : State} {o : StepOutcome} {i : StepIdent} (reports : o ≠ .noPath)
    (ident : s.ste.ident = some i) (k : Kept (buildReport [] { endingAt o s with ste.st := .reportWait }) u) :
    u.ste.routes = Vector.replicate 8 none ∧
      ReportOffered s (reportFrame s.lnk i.tag i.index o s.ste.hot s.ste.wearFlag
        (min (s.now - s.ste.takeAt) Config.elapsedCap) []) u := by
  have ste := endingAt_ste o s
  obtain ⟨queue, -, report⟩ := endingAt_rtq o s
  obtain ⟨offered, routes⟩ := reportOffered_of_kept (i := i) (o := o) (by simp [ste, ident]) (by simp [ste]) reports rfl k
  refine ⟨by rw [routes, routeTable_nil], ?_⟩
  have frame : State.stepReport { endingAt o s with ste.st := .reportWait } i o [] =
      reportFrame s.lnk i.tag i.index o s.ste.hot s.ste.wearFlag (min (s.now - s.ste.takeAt) Config.elapsedCap) [] := by
    simp [State.stepReport, reportFrame, ownFrame, Lnk.addrByte, ste]
  rw [frame] at offered
  refine ⟨offered.onItsWay, fun e => offered.placed (report.trans e), fun b => ?_⟩
  have waits := offered.waits (reportBarred_of_same (s := s) queue (by simp) report b)
  simpa [ste, report] using waits

/-- The end of a step leaves what `Ended` says, whatever else its event brings about. -/
theorem ended_of_kept {s u : State} {o : StepOutcome} (reports : o ≠ .noPath) (k : Kept (endStep o s) u) : Ended s o u := by
  have ste := endingAt_ste o s
  have steq := endStep_eq_finish o s
  obtain ⟨outcome, elapsed, grace, dwell, mark, -, -, -, rtq, evaluation, state⟩ := finishStep_marks o (endingAt o s)
  rw [← steq] at outcome elapsed grace dwell mark rtq evaluation state
  have fwq : (endStep o s).fwq = (endingAt o s).fwq := by rw [steq]; simp
  have link : (endStep o s).lnk.b.link = s.lnk.b.link := by rw [steq]; simp
  constructor
  case outcome => rw [k.2.result.1, outcome, ste]
  case elapsed => rw [k.2.result.2.1, elapsed, ste]
  case timers => rw [k.2.timers.1, k.2.timers.2, grace, dwell, ste]; exact ⟨rfl, rfl⟩
  case evaluation =>
    have := k.2.evaluating
    rw [evaluation] at this
    simpa [endingAt, recordOutcome_rev] using this
  case mark => rw [k.2.marked.1, mark, ste]
  case fault =>
    intro fault
    refine k.2.flags _ ?_
    rw [steq]
    simpa [endingAt, State.isLatched] using recordOutcome_fault fault s
  case state =>
    rcases state with idle | wait
    · exact .inl ((k.2.engine.resolve_right fun w => by rw [idle] at w; cases w.1).trans idle)
    · exact k.2.engine.symm.imp And.right fun e => e.trans wait
  case quiet =>
    intro i ident quiet
    have idle : endStep o s = enterIdle (endingAt o s) := by
      rw [steq]
      refine finishStep_quiet (fun j ident' => ?_) o
      rw [ste] at ident'
      cases ident.symm.trans ident'
      exact quiet
    rw [idle] at k
    have stands := (k.2.step (.inl (by simp))).step
    refine ⟨(enterIdle_rests _).kept k.2, ?_, ?_, ?_⟩
    · simpa [ste] using stands.2.2.2.2
    · simpa [ste] using k.2.marked.2.1
    · simpa [endingAt, recordOutcome_rev] using k.2.route
  case unsettled =>
    intro i ident loud unsettled
    refine endingAt_reported reports ident ?_
    rwa [← finishStep_unsettled (by simp [ste, ident]) loud unsettled, ← steq]
  case listless =>
    intro i p ident loud settles snapshot listless
    refine endingAt_reported reports ident ?_
    rwa [← finishStep_listless (by simp [ste, ident]) loud settles (by simp [ste, snapshot]) listless, ← steq]
  case requested =>
    intro i p ident loud settles snapshot list
    have made := finishStep_requested (s := endingAt o s) (by simp [ste, ident]) loud settles (by simp [ste, snapshot]) list
    rw [steq, made] at k
    refine ⟨fun noReport => ?_, by simpa using k.2.route⟩
    have wait : u.ste.st = .reportWait :=
      k.2.engine.elim id fun w => absurd (by simp [ste, noReport]) (k.2.placed rfl w.2).2.2
    obtain ⟨ident, snapshot, changing, -, -⟩ := (k.2.step (.inr wait)).step
    exact ⟨wait, by simpa [ste] using ident, by simpa [ste] using snapshot, by simpa [ste] using changing⟩
  case released =>
    intro x rest head held up
    rw [(k.1.forwardKept (.inl (link.trans up))).1, fwq, endingAt, releaseHeld_of_held (by simpa using head) held,
      releaseHead_up (by simpa using up)]
    simp [head]
  case echo =>
    intro x rest head held down step addressed empty
    have released : endingAt o s =
        releaseHead { x with frame := x.frame.stamp o.severity, own := true } (recordOutcome o s) :=
      releaseHeld_of_held (by simpa using head) held _
    obtain ⟨queue, echo⟩ := releaseHead_echo (s := recordOutcome o s)
      (x := { x with frame := x.frame.stamp o.severity, own := true }) (by simpa using down) (by simpa using step)
      (by simpa using addressed) (by simpa [recordOutcome_rtq] using empty)
    rw [← released] at queue echo
    refine ⟨k.1.echoes _ (.inl ?_), ?_⟩
    · rw [rtq]
      simpa using echo
    · have forward := k.1.forward
      rw [fwq, queue] at forward
      simpa [head] using forward

end Sys2Proof.Machine
end

section
/-! PROOF. The expiries of the grace and dwell timers (R54, R56; O22). -/

namespace Sys2Proof.Machine

theorem settledOutcome_eq (t : Ste) :
    settledOutcome t = if t.hot = true ∨ t.wearFlag = true then .settledDegraded else .settled := by
  simp [settledOutcome]

/-- A step that settles makes a report, and is no fault (R45). -/
theorem settledOutcome_mild (t : Ste) : settledOutcome t ≠ .noPath ∧ (settledOutcome t).severity < 3 := by
  unfold settledOutcome
  split <;> decide

/-- The end of a step moves no mode, and latches nothing unless it is a fault. -/
theorem endStep_control (o : StepOutcome) (s : State) :
    (endStep o s).mdc = s.mdc ∧ (o.severity < 3 → (endStep o s).evu = s.evu) := by
  refine ⟨by simp [endStep_eq_finish], fun mild => ?_⟩
  simp [endStep_eq_finish, endingAt, recordOutcome_evu mild]

theorem endStep_calm {o : StepOutcome} {s : State} (c : s.calm) : (endStep o s).calm := by
  unfold State.calm safeComplete at *
  simpa [endStep_control] using c

/-- The end of a step as the effect of an event: what `Ended` says, and nothing moved where nothing was about to launch. -/
theorem settled_endStep {o : StepOutcome} {s : State} (reports : o ≠ .noPath) (q : s.frontFirm) :
    Ended s o (settled (endStep o s)) ∧ (s.calm → Still (endStep o s) (settled (endStep o s))) :=
  have still := (endStep_frontFirm o q).still
  ⟨ended_of_kept reports (settled_kept _ still), fun c => settled_still _ still (endStep_calm c)⟩

/-- Settles O22: both expiries are the end of the step at the timer's instant. -/
theorem timerExpiriesEndTheStep : Obligations.TimerExpiriesEndTheStep := by
  refine ⟨fun due s running firm muting grace => ?_, fun due s running firm settling dwell => ?_⟩
  · obtain ⟨ended, still⟩ := settled_endStep (o := .failedHot) (s := s.advance due) (by decide) firm
    have effect : graceEffect s = endStep .failedHot (s.advance due) := by simp [graceEffect, muting, grace]
    refine ⟨_, congrArg Host.Outcome.next ((event_running _ running).trans (congrArg settled effect)), ended, fun c => ?_⟩
    have still := still c
    exact ⟨still.coil.trans (by simp), still.tables.trans (by simp), still.control.trans (endStep_control _ _).1⟩
  · obtain ⟨reports, mild⟩ := settledOutcome_mild s.ste
    obtain ⟨ended, still⟩ := settled_endStep (s := s.advance due) reports firm
    have effect : dwellEffect s = endStep (settledOutcome s.ste) (s.advance due) := by simp [dwellEffect, settling, dwell]
    refine ⟨_, congrArg Host.Outcome.next ((event_running _ running).trans (congrArg settled effect)), ?_, fun c => ?_⟩
    · rwa [← settledOutcome_eq]
    · have still := still c
      obtain ⟨mdc, evu⟩ := endStep_control (settledOutcome s.ste) (s.advance due)
      exact ⟨still.coil.trans (by simp), still.tables.trans (by simp), still.control.trans mdc, still.events.trans (evu mild)⟩

end Sys2Proof.Machine
end

section
/-! SUPPORT. From the verdict to the settled routing (R52 to R56): the Step Engine's passages between its states, one equation for
each case. -/

namespace Sys2Proof.Machine

theorem Targets.isEmpty_iff {t : Targets} : t.isEmpty = true ↔ ∀ i : Elem, t[i] = Option.none := by
  simp [Targets.isEmpty, allElems]

theorem anyInFlight_eq_false_iff {c : Csd} : c.anyInFlight = false ↔ ∀ i : Elem, c.pulses[i] = none := by
  simp [Csd.anyInFlight, Csd.inTransit, allElems]

theorem latchEmpty_iff {c : Csd} : c.latchEmpty = true ↔ c.latch = [] := by
  simp [Csd.latchEmpty]

/-! ## The end of a step, as a passage -/

@[simp] theorem endStep_evaluation (o : StepOutcome) (s : State) : (endStep o s).rev.evaluation = none := by
  obtain ⟨-, -, -, -, -, -, -, -, -, evaluation, -⟩ := finishStep_marks o (endingAt o s)
  rw [endStep_eq_finish, evaluation]
  simp [endingAt, recordOutcome_rev]

/-- The end of a step whose frame is released already leaves the Forward Queue alone. -/
theorem endStep_queue {s : State} (free : ∀ x ∈ s.fwq.queue.head?, x.status ≠ .held) (o : StepOutcome) :
    (endStep o s).fwq.queue = s.fwq.queue := by
  have same : endingAt o s = recordOutcome o s := releaseHeld_of_not_held (by simpa using free) _
  rw [endStep_eq_finish, same]
  simp

@[simp] theorem endStep_link (o : StepOutcome) (s : State) : (endStep o s).lnk.b.link = s.lnk.b.link := by
  simp [endStep_eq_finish]

/-! ## The frame of a step without hold (R53) -/

theorem releaseUnlessHold_of_hold {s : State} {p : PathRec} (snapshot : s.ste.snapshot = some p) (hold : p.hold = true) :
    releaseUnlessHold s = s := by
  simp [releaseUnlessHold, snapshot, hold]

theorem releaseUnlessHold_of_free {s : State} {p : PathRec} (snapshot : s.ste.snapshot = some p) (free : p.hold = false) :
    releaseUnlessHold s = releaseHeld 0 s := by
  simp [releaseUnlessHold, snapshot, free]

theorem releaseUnlessHold_frontFirm {s : State} (q : s.frontFirm) : (releaseUnlessHold s).frontFirm := by
  unfold releaseUnlessHold
  split
  · exact q
  · split
    · exact q
    · exact releaseHeld_frontFirm 0 q

/-- The chain side that the release of a step without hold leaves alone. -/
theorem releaseUnlessHold_chain (s : State) :
    (releaseUnlessHold s).lnk.addr = s.lnk.addr ∧ (releaseUnlessHold s).lnk.margin = s.lnk.margin ∧
      (releaseUnlessHold s).lnk.b.link = s.lnk.b.link ∧ (releaseUnlessHold s).rtq.queue = s.rtq.queue ∧
      (releaseUnlessHold s).rtq.report = s.rtq.report := by
  unfold releaseUnlessHold
  split
  · simp
  · split <;> simp

/-! ## SETTLING (R56) -/

section
variable {s : State} {p : PathRec} (snapshot : s.ste.snapshot = some p)
include snapshot

theorem enterSettling_timed (dwell : p.dwell ≠ 0) :
    enterSettling s = { s with ste.st := .settling, ste.dwell := some (s.now + p.dwell) } := by
  simp [enterSettling, snapshot, dwell]

/-- A dwell of 0 expires at once. -/
theorem enterSettling_expired (dwell : p.dwell = 0) :
    enterSettling s = endStep (settledOutcome s.ste) { s with ste.st := .settling } := by
  simp [enterSettling, snapshot, dwell, settledOutcome]

end

theorem enterSettling_frontFirm {s : State} (q : s.frontFirm) : (enterSettling s).frontFirm := by
  unfold enterSettling
  dsimp only
  split
  · exact q
  · split
    · exact endStep_frontFirm _ q
    · exact q

theorem enterSettling_evaluation {s : State} (gone : s.rev.evaluation = none) : (enterSettling s).rev.evaluation = none := by
  unfold enterSettling
  dsimp only
  split
  · exact gone
  · split
    · exact endStep_evaluation _ _
    · exact gone

theorem enterSettling_link (s : State) : (enterSettling s).lnk.b.link = s.lnk.b.link := by
  unfold enterSettling
  dsimp only
  split
  · rfl
  · split
    · simp
    · rfl

/-! ## ACTUATING (R55) -/

theorem enterActuating_ste (s : State) : (enterActuating s).ste = { s.ste with st := .actuating, grace := none } := by
  unfold enterActuating
  dsimp only
  split <;> simp

/-- The targets of the changing set are pending for every element with a present class (R67). -/
theorem enterActuating_pending {s : State} {i : Elem} {q : Pos} (target : s.ste.changing[i] = some q)
    (fitted : (s.tbs.classOf i).isSome) : (enterActuating s).csd.pending[i] = some q := by
  have moves : ¬s.ste.changing.isEmpty := fun empty => by rw [Targets.isEmpty_iff.mp empty i] at target; cases target
  simpa [enterActuating, moves, handIn, fitted] using target

/-- Handing the changing set in changes the pending set alone. -/
theorem enterActuating_csd (s : State) : ∃ x d b, (enterActuating s).csd =
    { s.csd with pending := x, drive := d, passDue := b } := by
  unfold enterActuating
  dsimp only
  split
  · exact ⟨_, _, _, rfl⟩
  · exact ⟨_, _, _, rfl⟩

theorem enterActuating_safeComplete (s : State) : safeComplete (enterActuating s) = safeComplete s := by
  obtain ⟨x, d, b, csd⟩ := enterActuating_csd s
  have mdc : (enterActuating s).mdc = s.mdc := by simp
  unfold safeComplete
  rw [mdc, csd]
  rfl

theorem enterActuating_frontFirm {s : State} (q : s.frontFirm) : (enterActuating s).frontFirm :=
  SameFront.frontFirm ⟨by simp, by simp, by simp, by simp⟩ q

/-! ## MUTING (R54) -/

theorem enterMuting_dark {s : State} (dark : s.rfPresent = false) :
    enterMuting s = enterActuating { s with ste.st := .muting } := by
  have same : State.rfPresent { s with ste.st := .muting } = s.rfPresent := rfl
  simp [enterMuting, same, dark]

theorem enterMuting_timed {s : State} (lit : s.rfPresent = true) (grace : s.tbs.runtime.muteGrace ≠ 0) :
    enterMuting s =
      { s with ste.st := .muting, ste.grace := some (s.now + s.tbs.runtime.muteGrace * 1000) } := by
  have same : State.rfPresent { s with ste.st := .muting } = s.rfPresent := rfl
  simp [enterMuting, same, lit, grace]

/-- A mute grace of 0 expires at once. -/
theorem enterMuting_expired {s : State} (lit : s.rfPresent = true) (grace : s.tbs.runtime.muteGrace = 0) :
    enterMuting s = endStep .failedHot { s with ste.st := .muting } := by
  have same : State.rfPresent { s with ste.st := .muting } = s.rfPresent := rfl
  simp [enterMuting, same, lit, grace]

theorem enterMuting_frontFirm {s : State} (q : s.frontFirm) : (enterMuting s).frontFirm := by
  unfold enterMuting
  dsimp only
  split
  · exact enterActuating_frontFirm q
  · split
    · exact endStep_frontFirm _ q
    · exact q

theorem enterMuting_evaluation {s : State} (gone : s.rev.evaluation = none) : (enterMuting s).rev.evaluation = none := by
  unfold enterMuting
  dsimp only
  split
  · simpa using gone
  · split
    · exact endStep_evaluation _ _
    · exact gone

theorem enterMuting_link (s : State) : (enterMuting s).lnk.b.link = s.lnk.b.link := by
  unfold enterMuting
  dsimp only
  split
  · simp
  · split
    · simp
    · rfl

/-! ## The verdict (R52) -/

/-- The state in which the verdict of the evaluation is taken: the evaluation is over. -/
abbrev State.evaluated (s : State) : State := { s with rev.evaluation := none }

section
variable {s : State}

theorem takeVerdict_interlock (x : Fin 8) : takeVerdict (.interlock x) s = endStep .rejectedInterlock s.evaluated := rfl

theorem takeVerdict_spanLimit (x : Fin 8) : takeVerdict (.spanLimit x) s = endStep .rejectedSpanLimit s.evaluated := rfl

theorem takeVerdict_owed (owed : s.csd.latch ≠ []) : takeVerdict .pass s = endStep .failedSupply s.evaluated := by
  simp [takeVerdict, Csd.latchEmpty, owed]

variable (clear : s.csd.latch = [])
include clear

/-- Nothing to move, and a pulse of another drive still in flight. -/
theorem takeVerdict_awaits (empty : ∀ i : Elem, s.ste.changing[i] = none) (flight : s.csd.anyInFlight = true) :
    takeVerdict .pass s = enterActuating (releaseUnlessHold s.evaluated) := by
  simp [takeVerdict, latchEmpty_iff.mpr clear, Targets.isEmpty_iff.mpr empty, flight]

/-- Nothing to move, and nothing in flight. -/
theorem takeVerdict_rests (empty : ∀ i : Elem, s.ste.changing[i] = none) (flight : s.csd.anyInFlight = false) :
    takeVerdict .pass s = enterSettling (releaseUnlessHold s.evaluated) := by
  simp [takeVerdict, latchEmpty_iff.mpr clear, Targets.isEmpty_iff.mpr empty, flight]

theorem takeVerdict_unsupplied (moves : ¬∀ i : Elem, s.ste.changing[i] = none) (low : s.csd.supply = .low) :
    takeVerdict .pass s = endStep .failedSupply s.evaluated := by
  simp [takeVerdict, latchEmpty_iff.mpr clear, mt Targets.isEmpty_iff.mp moves, low]

theorem takeVerdict_moves (moves : ¬∀ i : Elem, s.ste.changing[i] = none) (good : s.csd.supply = .good) :
    takeVerdict .pass s = enterMuting (releaseUnlessHold s.evaluated) := by
  simp [takeVerdict, latchEmpty_iff.mpr clear, mt Targets.isEmpty_iff.mp moves, good]

end

/-- What a verdict can lead to. -/
theorem takeVerdict_cases (v : Verdict) (s : State) :
    (∃ o, takeVerdict v s = endStep o s.evaluated) ∨
      takeVerdict v s = enterActuating (releaseUnlessHold s.evaluated) ∨
      takeVerdict v s = enterSettling (releaseUnlessHold s.evaluated) ∨
      takeVerdict v s = enterMuting (releaseUnlessHold s.evaluated) := by
  cases v with
  | interlock x => exact .inl ⟨_, takeVerdict_interlock x⟩
  | spanLimit x => exact .inl ⟨_, takeVerdict_spanLimit x⟩
  | pass =>
    by_cases clear : s.csd.latch = []
    · by_cases empty : ∀ i : Elem, s.ste.changing[i] = none
      · cases flight : s.csd.anyInFlight
        · exact .inr (.inr (.inl (takeVerdict_rests clear empty flight)))
        · exact .inr (.inl (takeVerdict_awaits clear empty flight))
      · cases supply : s.csd.supply
        · exact .inr (.inr (.inr (takeVerdict_moves clear empty supply)))
        · exact .inl ⟨_, takeVerdict_unsupplied clear empty supply⟩
    · exact .inl ⟨_, takeVerdict_owed clear⟩

theorem takeVerdict_frontFirm {s : State} (v : Verdict) (q : s.frontFirm) : (takeVerdict v s).frontFirm := by
  have released : (releaseUnlessHold s.evaluated).frontFirm := releaseUnlessHold_frontFirm q
  obtain ⟨o, h⟩ | h | h | h := takeVerdict_cases v s
  · rw [h]; exact endStep_frontFirm o q
  · rw [h]; exact enterActuating_frontFirm released
  · rw [h]; exact enterSettling_frontFirm released
  · rw [h]; exact enterMuting_frontFirm released

theorem takeVerdict_evaluation (v : Verdict) (s : State) : (takeVerdict v s).rev.evaluation = none := by
  have gone : (releaseUnlessHold s.evaluated).rev.evaluation = none := by simp
  obtain ⟨o, h⟩ | h | h | h := takeVerdict_cases v s
  · rw [h]; exact endStep_evaluation o _
  · rw [h]; simp
  · rw [h]; exact enterSettling_evaluation gone
  · rw [h]; exact enterMuting_evaluation gone

/-- A verdict leaves Port B's link alone. -/
theorem takeVerdict_link (v : Verdict) (s : State) : (takeVerdict v s).lnk.b.link = s.lnk.b.link := by
  obtain ⟨-, -, link, -⟩ := releaseUnlessHold_chain s.evaluated
  obtain ⟨o, h⟩ | h | h | h := takeVerdict_cases v s
  · rw [h]; simp
  · rw [h]; simpa using link
  · rw [h]; exact (enterSettling_link _).trans link
  · rw [h]; exact (enterMuting_link _).trans link

end Sys2Proof.Machine
end

section
/-! PROOF. The verdict of the span evaluation decides what becomes of the step and of its frame (R52 to R58; O20). -/

namespace Sys2Proof.Machine

/-! ## Endings that are seen from another state -/

/-- The step in progress, and what its report is made of, stand. -/
structure SameStep (e f : State) : Prop where
  now : f.now = e.now
  ste : f.ste = { e.ste with st := f.ste.st }
  route : f.rev.route = e.rev.route
  straps : f.lnk.addr = e.lnk.addr ∧ f.lnk.margin = e.lnk.margin
  outbox : f.rtq.queue = e.rtq.queue ∧ f.rtq.report = e.rtq.report
  tables : f.tbs = e.tbs
  coil : f.csd = e.csd

/-- What becomes of a report does not depend on the engine's state before it. -/
theorem ReportOffered.congr {e f u : State} {r : Frame} (same : SameStep e f) (h : ReportOffered f r u) : ReportOffered e r u where
  onItsWay := h.onItsWay
  placed empty := h.placed (same.outbox.2.trans empty)
  waits b := by
    have waits := h.waits (reportBarred_of_same same.outbox.1 same.straps.2 same.outbox.2 b)
    rw [same.ste, same.outbox.2] at waits
    exact waits

/-- An ending seen from a state with the same step: what it says of the frame in the engine's charge holds where the Forward Queue is
the same, and of an empty queue it says nothing. -/
theorem Ended.congr {e f u : State} {o : StepOutcome} (same : SameStep e f)
    (chain : e.fwq.queue = [] ∨ (f.fwq.queue = e.fwq.queue ∧ f.lnk.b.link = e.lnk.b.link ∧ f.rtq.echo = e.rtq.echo))
    (h : Ended f o u) : Ended e o u := by
  have addr := same.straps.1
  have report : ∀ tag index entries elapsed, reportFrame f.lnk tag index o f.ste.hot f.ste.wearFlag elapsed entries =
      reportFrame e.lnk tag index o e.ste.hot e.ste.wearFlag elapsed entries := by
    intro tag index entries elapsed
    rw [same.ste]
    simp [reportFrame, ownFrame, Lnk.addrByte, addr]
  have ste := same.ste
  constructor
  case outcome => exact h.outcome
  case elapsed => rw [h.elapsed, same.now, ste]
  case timers => exact h.timers
  case evaluation => exact h.evaluation
  case mark => rw [h.mark, ste]
  case fault => exact h.fault
  case state => exact h.state
  case quiet =>
    intro i ident quiet
    have := h.quiet i (by rw [ste]; exact ident) quiet
    rw [ste, same.route] at this
    exact this
  case unsettled =>
    intro i ident loud unsettled
    have := h.unsettled i (by rw [ste]; exact ident) loud unsettled
    rw [report, same.now, ste] at this
    exact this.imp_right (.congr same)
  case listless =>
    intro i p ident loud settles snapshot listless
    have := h.listless i p (by rw [ste]; exact ident) loud settles (by rw [ste]; exact snapshot) listless
    rw [report, same.now, ste] at this
    exact this.imp_right (.congr same)
  case requested =>
    intro i p ident loud settles snapshot list
    have := h.requested i p (by rw [ste]; exact ident) loud settles (by rw [ste]; exact snapshot) list
    rw [same.now, same.tables, same.coil, ste] at this
    exact this
  case released =>
    intro x rest head held up
    obtain empty | ⟨queue, link, -⟩ := chain
    · rw [empty] at head; cases head
    · exact h.released x rest (queue.trans head) held (link.trans up)
  case echo =>
    intro x rest head held down step addressed empty
    obtain none_held | ⟨queue, link, echo⟩ := chain
    · rw [none_held] at head; cases head
    · have := h.echo x rest (queue.trans head) held (link.trans down) step (by rw [Lnk.transparent, addr]; exact addressed)
        (echo.trans empty)
      simpa [echoOf, ownFrame, Lnk.addrByte, addr] using this

/-- The step stands while the engine passes from CHECKING to another state and releases its frame (R53). -/
theorem sameStep_released (s : State) (st : EngineState) :
    SameStep s { releaseUnlessHold s.evaluated with ste := { (releaseUnlessHold s.evaluated).ste with st := st } } := by
  obtain ⟨addr, margin, -, queue, report⟩ := releaseUnlessHold_chain s.evaluated
  exact ⟨by simp, by simp, by simp, ⟨addr, margin⟩, ⟨queue, report⟩, by simp, by simp⟩

theorem sameStep_evaluated (s : State) : SameStep s s.evaluated :=
  ⟨rfl, rfl, rfl, ⟨rfl, rfl⟩, ⟨rfl, rfl⟩, rfl, rfl⟩

/-! ## What a passage leaves -/

/-- A state of the engine other than REPORT_WAIT stands when the consequences are drawn. -/
theorem KeptMatrix.state {t u : State} {x : EngineState} (k : KeptMatrix t u) (h : t.ste.st = x) (busy : x ≠ .reportWait) :
    u.ste.st = x :=
  (k.engine.resolve_right fun w => busy (h.symm.trans w.1)).trans h

/-- A target that is pending after an event's own effect is still pending, or being driven, when its consequences are drawn. -/
theorem KeptMatrix.driven {t u : State} {i : Elem} {q : Pos} (k : KeptMatrix t u) (open_ : safeComplete t = false)
    (pending : t.csd.pending[i] = some q) : u.csd.pending[i] = some q ∨ ∃ x, u.csd.pulses[i] = some x ∧ x.target = q := by
  obtain same | ⟨-, -, x, pulse, target⟩ := (k.handed open_).2.2 i
  · exact .inl (same.trans pending)
  · exact .inr ⟨x, pulse, by rw [pending] at target; exact (Option.some.inj target).symm⟩

/-- Outside SAFE_DRIVING no safe drive completes. -/
theorem safeComplete_of_run {s : State} (run : s.mdc.mode = .run) : safeComplete s = false := by
  simp [safeComplete, run]

section
variable {s : State} (free : ∀ x ∈ s.fwq.queue.head?, x.status ≠ .held)
include free

theorem enterSettling_queue : (enterSettling s).fwq.queue = s.fwq.queue := by
  unfold enterSettling
  dsimp only
  split
  · rfl
  · split
    · refine endStep_queue ?_ _; exact free
    · rfl

theorem enterMuting_queue : (enterMuting s).fwq.queue = s.fwq.queue := by
  unfold enterMuting
  dsimp only
  split
  · simp
  · split
    · refine endStep_queue ?_ _; exact free
    · rfl

end

/-- A verdict that ends the step. -/
theorem ended_of_verdict {v : Verdict} {s u : State} {o : StepOutcome} (reports : o ≠ .noPath)
    (ends : takeVerdict v s = endStep o s.evaluated) (k : Kept (takeVerdict v s) u) : Ended s o u :=
  (ended_of_kept reports (ends ▸ k)).congr (sameStep_evaluated s) (.inr ⟨rfl, rfl, rfl⟩)

section
variable {s u : State} (clear : s.csd.latch = []) (k : Kept (takeVerdict .pass s) u)
include clear k

/-- A PASS with something to move, the supply good and RF_PRESENT deasserted hands the changing set in (R54, R55). -/
theorem verdict_actuates (run : s.mdc.mode = .run) (moves : ¬∀ i : Elem, s.ste.changing[i] = none)
    (good : s.csd.supply = .good) (dark : s.rfPresent = false) :
    u.ste.st = .actuating ∧ ∀ (i : Elem) (q : Pos), s.ste.changing[i] = some q → (s.tbs.classOf i).isSome →
      u.csd.pending[i] = some q ∨ ∃ x, u.csd.pulses[i] = some x ∧ x.target = q := by
  have dark' : (releaseUnlessHold s.evaluated).rfPresent = false := by simpa [State.rfPresent] using dark
  rw [takeVerdict_moves clear moves good, enterMuting_dark dark'] at k
  refine ⟨k.2.state (by rw [enterActuating_ste]) (by decide), fun i q target fitted => ?_⟩
  refine k.2.driven ?_ (enterActuating_pending (by simpa using target) (by simpa using fitted))
  rw [enterActuating_safeComplete]
  exact safeComplete_of_run (by simpa using run)

/-- With RF_PRESENT asserted the step waits in MUTING for its grace, and fails at once where that is 0 (R54). -/
theorem verdict_mutes (moves : ¬∀ i : Elem, s.ste.changing[i] = none) (good : s.csd.supply = .good)
    (lit : s.rfPresent = true) :
    (s.tbs.runtime.muteGrace ≠ 0 →
      u.ste.st = .muting ∧ u.ste.grace = some (s.now + s.tbs.runtime.muteGrace * 1000)) ∧
    (s.tbs.runtime.muteGrace = 0 → u.ste.outcome = some .failedHot) := by
  have lit' : (releaseUnlessHold s.evaluated).rfPresent = true := by simpa [State.rfPresent] using lit
  rw [takeVerdict_moves clear moves good] at k
  constructor <;> intro grace
  · rw [enterMuting_timed lit' (by simpa using grace)] at k
    exact ⟨k.2.state rfl (by decide), by simpa using k.2.timers.1⟩
  · rw [enterMuting_expired lit' (by simpa using grace)] at k
    exact (ended_of_kept (by decide) k).outcome

variable {p : PathRec} (snapshot : s.ste.snapshot = some p)
include snapshot

/-- A PASS that finds nothing to move and nothing in flight starts the dwell timer (R52, R56). -/
theorem verdict_settles (empty : ∀ i : Elem, s.ste.changing[i] = none) (flight : s.csd.anyInFlight = false)
    (dwell : p.dwell ≠ 0) : u.ste.st = .settling ∧ u.ste.dwell = some (s.now + p.dwell) := by
  rw [takeVerdict_rests clear empty flight, enterSettling_timed (by simpa using snapshot) dwell] at k
  exact ⟨k.2.state rfl (by decide), by simpa using k.2.timers.2⟩

/-- With a dwell of 0 the step ends at once (R56). -/
theorem verdict_settles_at_once (empty : ∀ i : Elem, s.ste.changing[i] = none) (flight : s.csd.anyInFlight = false)
    (dwell : p.dwell = 0) : Ended (if p.hold = true then s else { s with fwq.queue := [] })
      (if s.ste.hot = true ∨ s.ste.wearFlag = true then .settledDegraded else .settled) u := by
  rw [takeVerdict_rests clear empty flight, enterSettling_expired (by simpa using snapshot) dwell] at k
  have outcome : settledOutcome (releaseUnlessHold s.evaluated).ste =
      if s.ste.hot = true ∨ s.ste.wearFlag = true then .settledDegraded else .settled := by
    rw [settledOutcome_eq]
    simp
  have ended := ended_of_kept (settledOutcome_mild _).1 k
  have same := sameStep_released s .settling
  rw [outcome] at ended
  cases hold : p.hold with
  | true =>
    rw [releaseUnlessHold_of_hold (by exact snapshot) hold] at ended same
    exact ended.congr same (.inr ⟨rfl, rfl, rfl⟩)
  | false =>
    have emptied : SameStep { s with fwq.queue := [] } _ :=
      ⟨same.now, same.ste, same.route, same.straps, same.outbox, same.tables, same.coil⟩
    exact ended.congr emptied (.inl rfl)

/-- On leaving CHECKING for another state a step without hold releases its frame with severity 0 (R53). -/
theorem verdict_releases (moves : (∀ i : Elem, s.ste.changing[i] = none) ∨ s.csd.supply = .good) (hold : p.hold = false)
    (up : s.lnk.b.link = .up) {x : FwdEntry} {rest : List FwdEntry} (head : s.fwq.queue = x :: rest) (held : x.status = .held) :
    u.fwq.queue = { frame := x.frame.stamp 0, status := .released, own := true } :: rest := by
  have released : (releaseUnlessHold s.evaluated).fwq.queue =
      { frame := x.frame.stamp 0, status := .released, own := true } :: rest := by
    rw [releaseUnlessHold_of_free (by exact snapshot) hold, releaseHeld_of_held (by exact head) held,
      releaseHead_up (by exact up)]
    simp [head]
  have free : ∀ y ∈ (releaseUnlessHold s.evaluated).fwq.queue.head?, y.status ≠ .held := by simp [released]
  have passage : (takeVerdict .pass s).fwq.queue = (releaseUnlessHold s.evaluated).fwq.queue := by
    by_cases empty : ∀ i : Elem, s.ste.changing[i] = none
    · cases flight : s.csd.anyInFlight
      · rw [takeVerdict_rests clear empty flight, enterSettling_queue free]
      · rw [takeVerdict_awaits clear empty flight]; simp
    · rw [takeVerdict_moves clear empty (moves.resolve_left empty), enterMuting_queue free]
  have link : (takeVerdict .pass s).lnk.b.link = .up := (takeVerdict_link _ _).trans up
  rw [(k.1.forwardKept (.inl link)).1, passage, released]

/-- One with hold keeps its frame until it ends (R53). -/
theorem verdict_holds (moves : (∀ i : Elem, s.ste.changing[i] = none) ∨ s.csd.supply = .good) (hold : p.hold = true)
    (goesOn : (∀ i : Elem, s.ste.changing[i] = none) → s.csd.anyInFlight = true ∨ p.dwell ≠ 0)
    (graced : (¬∀ i : Elem, s.ste.changing[i] = none) → s.rfPresent = false ∨ s.tbs.runtime.muteGrace ≠ 0)
    {x : FwdEntry} {rest : List FwdEntry} (head : s.fwq.queue = x :: rest) (held : x.status = .held) :
    u.fwq.queue = x :: rest := by
  have kept : releaseUnlessHold s.evaluated = s.evaluated := releaseUnlessHold_of_hold (by exact snapshot) hold
  have passage : (takeVerdict .pass s).fwq.queue = s.fwq.queue := by
    by_cases empty : ∀ i : Elem, s.ste.changing[i] = none
    · cases flight : s.csd.anyInFlight with
      | false =>
        have dwell : p.dwell ≠ 0 := (goesOn empty).resolve_left (by simp [flight])
        rw [takeVerdict_rests clear empty flight, kept, enterSettling_timed (by exact snapshot) dwell]
      | true => rw [takeVerdict_awaits clear empty flight, kept]; simp
    · rw [takeVerdict_moves clear empty (moves.resolve_left empty), kept]
      cases lit : s.rfPresent with
      | false => rw [enterMuting_dark (by exact lit)]; simp
      | true =>
        have grace : s.tbs.runtime.muteGrace ≠ 0 := (graced empty).resolve_left (by simp [lit])
        rw [enterMuting_timed (by exact lit) (by exact grace)]
  have unreleased : ∀ y ∈ (takeVerdict .pass s).fwq.queue.head?, y.status ≠ .released := by
    simp [passage, head, held]
  rw [(k.1.forwardKept (.inr unreleased)).1, passage, head]

end

/-- Settles O20: the verdict's own effect is one passage or the end of the step, and `Ended` says what the end leaves. -/
theorem spanVerdictDecides : Obligations.SpanVerdictDecides := by
  intro time v p s running firm run checking evaluation snapshot e verdict empty
  have effect : verdictEffect time s = takeVerdict verdict e := by simp only [verdictEffect, checking, evaluation, verdict, e]
  have k : Kept (takeVerdict verdict e) (settled (takeVerdict verdict e)) :=
    settled_kept _ (takeVerdict_frontFirm verdict (s := e) firm).still
  refine ⟨_, congrArg Host.Outcome.next ((event_running _ running).trans (congrArg settled effect)), ?_, ?_⟩
  · have gone := k.2.evaluating
    rw [takeVerdict_evaluation] at gone
    simpa using gone
  generalize settled (takeVerdict verdict e) = u at k
  clear_value verdict
  refine ⟨?_, ?_, ?_, ?_, ?_, ?_, ?_, ?_, ?_, ?_, ?_⟩
  · rintro ⟨x, rfl⟩
    exact ended_of_verdict (by decide) (takeVerdict_interlock x) k
  · rintro ⟨x, rfl⟩
    exact ended_of_verdict (by decide) (takeVerdict_spanLimit x) k
  · rintro rfl owed
    exact ended_of_verdict (by decide) (takeVerdict_owed owed) k
  · rintro rfl clear empty flight
    rw [takeVerdict_awaits (s := e) clear empty flight] at k
    exact k.2.state (by rw [enterActuating_ste]) (by decide)
  · rintro rfl clear empty flight dwell
    exact verdict_settles (s := e) clear k snapshot empty flight dwell
  · rintro rfl clear moves low
    exact ended_of_verdict (by decide) (takeVerdict_unsupplied clear moves low) k
  · rintro rfl clear moves good dark
    exact verdict_actuates (s := e) clear k run moves good dark
  · rintro rfl clear moves good lit
    exact verdict_mutes (s := e) clear k moves good lit
  · rintro rfl clear moves hold up x rest head held
    exact verdict_releases (s := e) clear k snapshot moves hold up head held
  · rintro rfl clear moves hold goesOn graced x rest head held
    exact verdict_holds (s := e) clear k snapshot moves hold goesOn graced head held
  · rintro rfl clear empty flight dwell
    exact verdict_settles_at_once (s := e) clear k snapshot empty flight dwell

end Sys2Proof.Machine
end

section
/-! PROOF. The results of the route request make the report and the ROUTE table (R60 to R62, R145; O23). -/

namespace Sys2Proof.Machine

/-! ## The completion of the route request -/

/-- A front stays still when the results of the route request are built into a report: a step frame that waits for the engine's report
goes on waiting where the latch list or the report outbox bars it. -/
theorem buildReport_frontStill {s : State} {i : StepIdent} {o : StepOutcome} (entries : List RouteEntry)
    (ident : s.ste.ident = some i) (outcome : s.ste.outcome = some o) (reports : o ≠ .noPath)
    (waits : s.stepWaits → s.csd.latch ≠ [] ∨ s.reportBarred) (q : s.frontStill) : (buildReport entries s).frontStill := by
  obtain ⟨-, -, -, -, -, -, -, -, rtq, -⟩ := buildReport_marks entries s
  have same : SameFront s (buildReport entries s) := ⟨by simp, by simp, by simp, by rw [rtq]⟩
  refine same.frontStill (fun w => ?_) q
  rcases waits w with latch | barred
  · exact same.stepWaits (by simp) (by simp) (fun f _ => .inl (by simpa using latch)) w
  · rw [buildReport_pending entries ident outcome reports (.inr barred.1)] at same ⊢
    refine same.stepWaits rfl rfl (fun f b => ?_) w
    rcases b with b | b | b | ⟨wait, -⟩
    · exact .inl b
    · exact .inr (.inl b)
    · exact .inr (.inr (.inl b))
    · exact .inr (.inr (.inr ⟨wait, .inr barred⟩))

theorem buildReport_calm {s : State} (entries : List RouteEntry) (c : s.calm) : (buildReport entries s).calm := by
  unfold State.calm safeComplete at *
  simpa using c

/-- A report that is built is on its way, whatever the engine's state. -/
theorem buildReport_reported {s : State} {i : StepIdent} {o : StepOutcome} (entries : List RouteEntry)
    (ident : s.ste.ident = some i) (outcome : s.ste.outcome = some o) (reports : o ≠ .noPath) :
    (buildReport entries s).reported (s.stepReport i o entries) ∧ (buildReport entries s).ste.routes = routeTable entries := by
  by_cases room : s.ste.st = .reportWait ∧ s.rtq.report = none
  · rw [buildReport_placed entries ident outcome reports room.1 room.2]
    exact ⟨.inr (.inl (by simp)), by simp⟩
  · rw [buildReport_pending entries ident outcome reports (not_and_or.mp room)]
    exact ⟨.inl rfl, rfl⟩

/-! ## The admission of the report before -/

/-- From `s` to `t` nothing has changed but the links, the queues, and the outboxes other than the RESPONSE outbox. -/
structure ChainOnly (s t : State) : Prop where
  now : t.now = s.now
  mga : t.mga = s.mga
  tbs : t.tbs = s.tbs
  rev : t.rev = s.rev
  ste : t.ste = s.ste
  csd : t.csd = s.csd
  vfu : t.vfu = s.vfu
  mdc : t.mdc = s.mdc
  response : t.rtq.response = s.rtq.response
  held : t.rtq.responseHeld = s.rtq.responseHeld

/-- Whether the Verify Unit has anything to do does not depend on the chain side. -/
theorem ChainOnly.verifyAction_none {s t : State} (h : ChainOnly s t) (idle : verifyAction s = none) :
    verifyAction t = none := by
  have choice : verifyChoice t = verifyChoice s := by
    unfold verifyChoice ordinaryAllowed pullInAllowed lowestIdle
    rw [h.vfu, h.mdc, h.ste, h.csd, h.now]
  unfold verifyAction at idle ⊢
  rw [h.vfu, h.csd, h.now, choice]
  cases activity : s.vfu.activity with
  | free =>
    rw [activity] at idle
    simpa using idle
  | claimed b k =>
    rw [activity] at idle
    by_cases ready : s.csd.bankIdle b s.now = true <;> simp_all
  | verifying b k due => rfl

/-- Where nothing was due, nothing of the matrix side and of the agent is due after a change of the chain side. -/
theorem ChainOnly.react_eq {s t : State} (h : ChainOnly s t) (c : s.complete) :
    react t = (offerReport t).orElse fun _ => (examineHead t).orElse fun _ => (admissionPass t).orElse fun _ =>
      (startTxB t).orElse fun _ => startTxA t := by
  obtain ⟨restart, pass, choose, safe, hold, offer, -⟩ := complete_parts c
  have restart' : restartEvaluation t = none := by
    rw [restartEvaluation_eq_none_iff] at restart ⊢
    rwa [h.rev, h.tbs, h.csd]
  have pass' : makePass t = none := by
    have due : t.csd.passDue = false := by rw [h.csd]; exact passDue_of_complete pass
    simp [makePass, due]
  have choose' : chooseVerify t = none := by
    simp [chooseVerify, h.verifyAction_none (verifyAction_of_complete choose)]
  have safe' : completeSafe t = none := by
    have same : safeComplete t = safeComplete s := by unfold safeComplete; rw [h.mdc, h.csd]
    unfold completeSafe at safe ⊢
    rw [same]
    split at safe
    · split at safe <;> cases safe
    · next incomplete => exact if_neg incomplete
  have hold' : endHold t = none := by
    unfold endHold at hold ⊢
    rw [h.held, h.csd]
    split at hold
    · cases hold
    · next holds => exact if_neg holds
  have offer' : offerAnswer t = none := by
    unfold offerAnswer at offer ⊢
    rw [h.mga, h.response]
    split at offer
    · cases offer
    · rfl
  simp [react, restart', pass', choose', safe', hold', offer']

/-- When the chain end has nothing to deal with (R141, R142). -/
theorem dealAtChainEnd_eq_none_iff {s : State} : dealAtChainEnd s = none ↔ ∀ x l, s.lnk.b.link = .down →
    s.fwq.queue = x :: l → x.status = .released →
      x.frame.isStep = true ∧ s.lnk.transparent = false ∧ s.rtq.echo ≠ none := by
  unfold dealAtChainEnd
  split
  · next x l down head =>
    rw [down, head]
    by_cases released : x.status = .released
    · cases step : x.frame.isStep <;> cases transparent : s.lnk.transparent <;> simp [released, step]
    · simp [released]
  · next no => exact ⟨fun _ x l down head => absurd head (no x l down), fun _ => rfl⟩

/-- With no frame that waits, only a released head at the chain end is dealt with, and by an idle agent's side alone. -/
theorem examineHead_eq_none_iff {s : State} (quiet : s.headQuiet) :
    examineHead s = none ↔ (s.mga = .idle → dealAtChainEnd s = none) := by
  unfold examineHead
  split
  · next x l idle head =>
    have nothing : x.status ≠ .released → dealAtChainEnd s = none := fun no =>
      dealAtChainEnd_eq_none_iff.mpr fun y m _ head' released => by
        rw [head] at head'; cases head'; exact absurd released no
    split
    · simp [idle]
    · next held => simp [nothing (by simp [held])]
    · next waiting => exact absurd waiting (quiet x (by simp [head]))
  · next no =>
    refine ⟨fun _ idle => dealAtChainEnd_eq_none_iff.mpr fun x l _ head _ => ?_, fun _ => rfl⟩
    exact absurd head (no x l idle)

theorem departRet_rtq (s : State) : (departRet s).rtq = { s.rtq with queue := s.rtq.queue.tail } := by
  obtain ⟨m, w, l, -, h⟩ := compareRet_eq { s with rtq.queue := s.rtq.queue.tail }
  rw [departRet, h]

@[simp] theorem appendRet_queue (f : Frame) (own : Bool) (s : State) :
    (appendRet f own s).rtq.queue = s.rtq.queue ++ [{ frame := f, own := own }] := by
  obtain ⟨m, w, l, -, h⟩ := compareRet_eq { s with rtq.queue := s.rtq.queue ++ [{ frame := f, own := own }] }
  rw [appendRet, h]

/-- A report waits for the outbox, which the report `g` before it fills, alone. -/
structure ReportBehind (f g : Frame) (s : State) : Prop where
  wait : s.ste.st = .reportWait
  pending : s.ste.report = some f
  outbox : s.rtq.report = some g
  alert : s.rtq.alert = none
  response : s.rtq.response = none
  echo : s.rtq.echo = none

/-- The report in the outbox enters the Return Queue (R145). -/
def admitReport (g : Frame) (s : State) : State := appendRet g true { s with rtq.report := none }

/-- The pending report enters the outbox, and the engine IDLE (R61). -/
def placeReport (f : Frame) (s : State) : State := enterIdle { s with rtq.report := some f, ste.report := none }

theorem ChainOnly.admitReport {s t : State} (h : ChainOnly s t) (g : Frame) : ChainOnly s (admitReport g t) := by
  constructor <;> simp [Machine.admitReport, h.now, h.mga, h.tbs, h.rev, h.ste, h.csd, h.vfu, h.mdc, h.response, h.held]

/-- With room in the Return Queue, the report in the outbox is admitted, and the one behind it then placed (R61, R145). -/
theorem settled_reportBehind {s t : State} {f g : Frame} (c : s.complete) (h : ChainOnly s t) (behind : ReportBehind f g t)
    (front : examineHead t = none) (room : t.outboxRoom = true) (quiet : t.headQuiet) :
    Kept (placeReport f (admitReport g t)) (settled t) := by
  obtain ⟨wait, pending, outbox, alert, response, echo⟩ := behind
  have barred : offerReport t = none := by simp [offerReport, outbox]
  have admitted : admissionPass t = some (admitReport g t) := by
    simp [admissionPass, State.outboxReady, room, outbox, passAlert, alert, passResponse, response, passEcho, echo, passReport,
      admitReport]
  have first : react t = some (admitReport g t) := by simp [h.react_eq c, barred, front, admitted]
  have placed : offerReport (admitReport g t) = some (placeReport f (admitReport g t)) := by
    simp [offerReport, placeReport, admitReport, wait, pending]
  have second : react (admitReport g t) = some (placeReport f (admitReport g t)) := by
    simp [(h.admitReport g).react_eq c, placed]
  have twice : settled t = settle 4094 (placeReport f (admitReport g t)) := by
    unfold settled Config.settleFuel
    rw [settle, first]
    dsimp only
    rw [settle, second]
  rw [twice]
  refine settle_kept _ _ (.inl fun x hx => quiet x ?_)
  simpa [placeReport, admitReport] using hx

/-- The route request has completed, and is gone. -/
def routesTaken (time : Nat) (s : State) : State := { s.advance time with rev.route := none }

/-- The end of the transmission of the Return Queue head: the head has left. -/
theorem endTransmission_returned {s : State} {x : Tx} (sending : s.lnk.a.tx = some x) (source : x.source = .returnHead) :
    ChainOnly s (endTransmission .a s) ∧ (endTransmission .a s).rtq = { s.rtq with queue := s.rtq.queue.tail } ∧
      (endTransmission .a s).fwq = s.fwq ∧ (endTransmission .a s).lnk.b.link = s.lnk.b.link ∧
      (endTransmission .a s).lnk.margin = s.lnk.margin ∧ (endTransmission .a s).lnk.addr = s.lnk.addr := by
  obtain ⟨a, left⟩ : ∃ a, endTransmission .a s = departRet (s.setPort .a a) := by
    simp only [endTransmission, Lnk.port_a, sending, vacate, source]
    exact ⟨_, rfl⟩
  have rtq : (endTransmission .a s).rtq = { s.rtq with queue := s.rtq.queue.tail } := by
    rw [left, departRet_rtq]
    rfl
  refine ⟨⟨?_, ?_, ?_, ?_, ?_, ?_, ?_, ?_, by rw [rtq], by rw [rtq]⟩, rtq, ?_⟩
  all_goals simp [left, State.setPort]

/-- Settles O23: the request's completion builds the report, and the admission of the report before makes room for the one behind. -/
theorem routeResultsAreReported : Obligations.RouteResultsAreReported := by
  refine ⟨fun time r i o s running q waits route ident outcome reports => ?_,
    fun time f g x s running quiet c wait pending outbox alert response echo full sending source => ?_⟩
  · have effect : routesEffect time s = buildReport r.results (routesTaken time s) := by
      simp only [routesEffect, route, routesTaken]
    have still := buildReport_frontStill (s := routesTaken time s) r.results ident outcome reports waits q
    have k : Kept _ _ := settled_kept _ still
    obtain ⟨reported, routes⟩ :=
      buildReport_reported (s := routesTaken time s) r.results ident outcome reports
    refine ⟨_, congrArg Host.Outcome.next ((event_running _ running).trans (congrArg settled effect)), ?_, fun n => ?_,
      k.1.reports _ reported, fun wait => ?_, fun c => ?_⟩
    · simpa [routesTaken] using k.2.route
    · rw [k.2.marked.2.1, routes]
      simp [routeTable]
    · have offered := (reportOffered_of_kept (s := routesTaken time s) ident outcome reports wait k).1
      exact ⟨offered.onItsWay, offered.placed, offered.waits⟩
    · have stood := settled_still _ still (buildReport_calm _ c)
      exact ⟨stood.coil.trans (by simp [routesTaken]), stood.tables.trans (by simp [routesTaken]),
        stood.events.trans (by simp [routesTaken]), stood.control.trans (by simp [routesTaken])⟩
  · obtain ⟨only, rtq, fwq, link, margin, addr⟩ := endTransmission_returned (s := s.advance time) sending source
    have quiet' : (endTransmission .a (s.advance time)).headQuiet := by unfold State.headQuiet; rwa [fwq]
    have front : examineHead (endTransmission .a (s.advance time)) = none := by
      obtain ⟨-, -, -, -, -, -, -, front, -⟩ := complete_parts c
      rw [examineHead_eq_none_iff quiet', only.mga]
      rw [examineHead_eq_none_iff (s := s.advance time) quiet] at front
      intro idle
      have none_dealt := front idle
      rw [dealAtChainEnd_eq_none_iff] at none_dealt ⊢
      rw [link, fwq, Lnk.transparent, addr, rtq]
      exact none_dealt
    have room : (endTransmission .a (s.advance time)).outboxRoom = true := by
      have margins : 0 < marginEntries s.lnk.margin ∧ marginEntries s.lnk.margin ≤ 8 := by
        cases s.lnk.margin <;> decide
      simp [State.outboxRoom, State.retFree, rtq, Config.retCapacity]
      omega
    have k := settled_reportBehind (f := f) (g := g) c only
      ⟨by rw [only.ste]; exact wait, by rw [only.ste]; exact pending, by rw [rtq]; exact outbox, by rw [rtq]; exact alert,
        by rw [rtq]; exact response, by rw [rtq]; exact echo⟩ front room quiet'
    refine ⟨_, congrArg Host.Outcome.next (event_running _ running), (enterIdle_rests _).kept k.2, ?_, ?_, ?_⟩
    · have stands := (k.2.step (.inl (by simp [placeReport]))).step
      simpa [placeReport] using stands.2.2.2.2
    · refine (k.1.barred ⟨by simp [placeReport], ?_⟩).1.trans (by simp [placeReport])
      simp [placeReport, admitReport, rtq]
      omega
    · refine k.1.back.subset ?_
      simp [placeReport, admitReport]

end Sys2Proof.Machine
end

section
/-! PROOF. A landing in ACTUATING is counted or not, and the last one lets the step settle (R55, R56, R64, R71; O26). -/

namespace Sys2Proof.Machine

/-! ## The landing as its drive takes it (R71) -/

/-- The part of a landing that concerns the drive the pulse belongs to. -/
def landForDrive (e : Elem) (d : Drive) (s : State) : State :=
  match d with
  | .step _ => s
  | .safe => landSafe e s
  | .recovery => landRecovery e s

theorem reportLanding_eq (e : Elem) (d : Drive) (s : State) :
    reportLanding e d s = landForEngine e d (landForDrive e d s) := by
  cases d <;> rfl

@[simp] theorem landForDrive_frame (e : Elem) (d : Drive) (s : State) :
    (landForDrive e d s).now = s.now ∧ (landForDrive e d s).lnk = s.lnk ∧ (landForDrive e d s).fwq = s.fwq ∧
      (landForDrive e d s).rtq = s.rtq ∧ (landForDrive e d s).mga = s.mga ∧ (landForDrive e d s).ste = s.ste ∧
      (landForDrive e d s).mdc.mode = s.mdc.mode := by
  cases d <;> simp [landForDrive, landSafe]

/-- A landing leaves the latch list empty or not, and the recovery drive's report of it moves no element. -/
theorem landForDrive_csd (e : Elem) (d : Drive) (s : State) :
    (landForDrive e d s).csd.recorded = s.csd.recorded ∧ (landForDrive e d s).csd.pulses = s.csd.pulses ∧
      (landForDrive e d s).csd.passDue = s.csd.passDue ∧ ((landForDrive e d s).csd.latch = [] ↔ s.csd.latch = []) := by
  cases d with
  | step n => simp [landForDrive]
  | safe => simp [landForDrive, landSafe]
  | recovery =>
    unfold landForDrive landRecovery completeRecovery
    dsimp only
    split
    · split <;> simp
    · simp

/-! ## The landing as the Step Engine takes it (R55, R64) -/

/-- The landings counted once a pulse of a drive has landed at an element. -/
def Ste.landedAfter (t : Ste) (e : Elem) (d : Drive) : Vector Bool 48 :=
  if d = .step t.serial ∧ t.changing[e] ≠ none then t.landed.set e true else t.landed

theorem allLanded_iff {t : Ste} : t.allLanded = true ↔ ∀ j : Elem, t.changing[j] ≠ none → t.landed[j] = true := by
  simp [Ste.allLanded, allElems, imp_iff_not_or]

/-- In ACTUATING a landing is counted, and the engine settles where it was the last. -/
theorem landForEngine_eq {s : State} (actuating : s.ste.st = .actuating) (e : Elem) (d : Drive) :
    landForEngine e d s =
      if (∀ j : Elem, s.ste.changing[j] ≠ none → (s.ste.landedAfter e d)[j] = true) ∧ s.csd.anyInFlight = false
      then enterSettling { s with ste.landed := s.ste.landedAfter e d }
      else { s with ste.landed := s.ste.landedAfter e d } := by
  have counted : (if d = .step s.ste.serial ∧ s.ste.changing[e].isSome then
      { s with ste.landed := s.ste.landed.set e true } else s) = { s with ste.landed := s.ste.landedAfter e d } := by
    unfold Ste.landedAfter
    simp only [Option.isSome_iff_ne_none]
    split <;> rfl
  unfold landForEngine
  rw [if_pos actuating, counted]
  dsimp only
  simp only [Bool.and_eq_true, allLanded_iff, Bool.not_eq_true']

/-! ## The landing of a pulse -/

/-- The state that the Step Engine's part of a landing finds. -/
def landedState (e : Elem) (k : Pulse) (s : State) : State := landForDrive e k.drive (landPulse e k (s.advance k.landAt))

theorem pulseLandEffect_eq {s : State} {e : Elem} {k : Pulse} (pulse : s.csd.pulses[e] = some k)
    (phase : k.phase = .settleTime) : pulseLandEffect e s = landForEngine e k.drive (landedState e k s) := by
  simp only [pulseLandEffect, pulse, phase, if_pos, reportLanding_eq, landedState]

@[simp] theorem landedState_frame (e : Elem) (k : Pulse) (s : State) :
    (landedState e k s).now = max s.now k.landAt ∧ (landedState e k s).lnk = s.lnk ∧ (landedState e k s).fwq = s.fwq ∧
      (landedState e k s).rtq = s.rtq ∧ (landedState e k s).mga = s.mga ∧ (landedState e k s).ste = s.ste ∧
      (landedState e k s).mdc.mode = s.mdc.mode := by
  simp [landedState]

theorem landedState_csd (e : Elem) (k : Pulse) (s : State) :
    (landedState e k s).csd.recorded = s.csd.recorded.set e (some k.target) ∧
      (landedState e k s).csd.pulses = s.csd.pulses.set e none ∧ (landedState e k s).csd.passDue = true ∧
      ((landedState e k s).csd.latch = [] ↔ s.csd.latch = []) := by
  unfold landedState
  obtain ⟨recorded, pulses, due, latch⟩ := landForDrive_csd e k.drive (landPulse e k (s.advance k.landAt))
  rw [recorded, pulses, due, latch]
  simp [landPulse]

/-- After a landing something is in flight where another element's pulse is. -/
theorem landedState_anyInFlight (e : Elem) (k : Pulse) (s : State) :
    (landedState e k s).csd.anyInFlight = false ↔ ∀ j : Elem, j ≠ e → s.csd.pulses[j] = none := by
  rw [anyInFlight_eq_false_iff, (landedState_csd e k s).2.1]
  refine forall_congr' fun j => ?_
  by_cases same : j = e
  · simp [same]
  · have apart : e.val ≠ j.val := fun h => same (Fin.ext h.symm)
    simp [same, Vector.getElem_set_ne, apart]

/-- The engine's passage after a landing that it counted keeps a front still: the step frame that waits goes on waiting, and where
the step ends at once the front is firm. -/
theorem landForEngine_frontStill {s : State} {p : PathRec} {e : Elem} {d : Drive} (actuating : s.ste.st = .actuating)
    (snapshot : s.ste.snapshot = some p) (q : s.frontStill)
    (firm : (∀ j : Elem, s.ste.changing[j] ≠ none → (s.ste.landedAfter e d)[j] = true) ∧ s.csd.anyInFlight = false →
      p.dwell = 0 → s.frontFirm) : (landForEngine e d s).frontStill := by
  have holds : s.ste.holdsStep = true := by simp [Ste.holdsStep, actuating]
  rw [landForEngine_eq actuating]
  split
  · next last =>
    by_cases dwell : p.dwell = 0
    · exact (enterSettling_frontFirm (s := { s with ste.landed := s.ste.landedAfter e d }) (firm last dwell)).still
    · rw [enterSettling_timed (by exact snapshot) dwell]
      have same : SameFront s { s with
          ste := { s.ste with st := .settling, landed := s.ste.landedAfter e d, dwell := some (s.now + p.dwell) } } :=
        ⟨rfl, rfl, rfl, rfl⟩
      refine same.frontStill (same.stepWaits rfl rfl fun f => ?_) q
      exact stepBarred_of_holdsStep holds rfl (fun c => by rw [actuating] at c; cases c) id id
  · have same : SameFront s { s with ste.landed := s.ste.landedAfter e d } := ⟨rfl, rfl, rfl, rfl⟩
    exact same.frontStill (same.stepWaits rfl rfl fun f => stepBarred_of_same ⟨rfl, rfl⟩ id id) q

/-- Settles O26: the landing's own effect is a counted landing, and with the last one the entry of SETTLING. -/
theorem lastLandingSettlesTheStep : Obligations.LastLandingSettlesTheStep := by
  intro i x p s running q actuating snapshot pulse phase landed done firm
  obtain ⟨recorded, pulses, due, latch⟩ := landedState_csd i x s
  have actuating' : (landedState i x s).ste.st = .actuating := by simpa using actuating
  have snapshot' : (landedState i x s).ste.snapshot = some p := by simpa using snapshot
  have counted : (landedState i x s).ste.landedAfter i x.drive = landed := by simp [Ste.landedAfter, landed]
  have last : ((∀ j : Elem, (landedState i x s).ste.changing[j] ≠ none →
      ((landedState i x s).ste.landedAfter i x.drive)[j] = true) ∧ (landedState i x s).csd.anyInFlight = false) ↔ done := by
    rw [counted, landedState_anyInFlight]
    simp [done]
  have same : SameFront s (landedState i x s) := ⟨by simp, by simp, by simp, by simp⟩
  have still' : (landedState i x s).frontStill := by
    refine same.frontStill (same.stepWaits (by simp) (by simp) fun f => ?_) q
    exact stepBarred_of_same (by simp) (by simp [latch]) (reportBarred_of_same (by simp) (by simp) (by simp))
  have still := landForEngine_frontStill actuating' snapshot' still' fun l dwell => same.frontFirm (firm (last.mp l) dwell)
  have effect : pulseLandEffect i s = if done then enterSettling { landedState i x s with ste.landed := landed }
      else { landedState i x s with ste.landed := landed } := by
    rw [pulseLandEffect_eq pulse phase, landForEngine_eq actuating' i x.drive, counted]
    rw [counted] at last
    simp only [last]
  have csd : (pulseLandEffect i s).csd = (landedState i x s).csd := by rw [pulseLandEffect_eq pulse phase]; simp
  rw [← pulseLandEffect_eq pulse phase] at still
  have after := settled_keptAfterPass still (by rw [csd]; exact due)
  have k : Kept (pulseLandEffect i s) (settled (pulseLandEffect i s)) := settled_kept _ still
  refine ⟨_, congrArg Host.Outcome.next (event_running _ running), ?_⟩
  generalize settled (pulseLandEffect i s) = u at after k
  refine ⟨?_, after, fun more => ?_, fun d dwell => ?_, fun d dwell => ?_⟩
  · rw [k.2.positions, csd, recorded]
  · rw [effect, if_neg more] at k
    have stands := (k.2.step (.inl (by simp [actuating]))).step
    exact ⟨k.2.state actuating' (by decide), stands.2.2.2.1, by simpa using k.2.timers.2⟩
  · rw [effect, if_pos d, enterSettling_timed (by exact snapshot') dwell] at k
    exact ⟨k.2.state rfl (by decide), by simpa using k.2.timers.2⟩
  · rw [effect, if_pos d, enterSettling_expired (by exact snapshot') dwell] at k
    rw [(ended_of_kept (settledOutcome_mild _).1 k).outcome, settledOutcome_eq]
    simp

end Sys2Proof.Machine
end

section
/-! PROOF. A change of an auxiliary line is handed to its readers (R54, R81, R170, R177, R184; O52). -/

namespace Sys2Proof.Machine

/-! ## What the readers do -/

/-- The state once a line's sampled level has changed, with nothing handed on yet. -/
def sampledState (time : Nat) (line : Fin 4) (level : Bool) (s : State) : State :=
  { s.advance time with axu.levels := s.axu.levels.set line level }

theorem lineEffect_eq (time : Nat) (line : Fin 4) (level : Bool) (s : State) : lineEffect time line level s =
    handDoor s.doorIn (handRf s.rfPresent (sampledState time line level s)) := rfl

/-- The door's opening is signalled, and nothing else (R170). -/
theorem handDoor_opened {s : State} (opened : s.doorIn = true) : handDoor false s = signal .door s := by
  simp [handDoor, opened]

theorem handDoor_other {s : State} {was : Bool} (other : was = true ∨ s.doorIn = false) : handDoor was s = s := by
  rcases other with h | h <;> simp [handDoor, h]

/-- RF_PRESENT returning with a pulse in flight is a hot event (R81). -/
theorem handRf_returned {s : State} (lit : s.rfPresent = true) (flight : s.csd.anyInFlight = true) :
    handRf false s = hotEvent s := by
  simp [handRf, lit, flight]

/-- RF_PRESENT going lets a step in MUTING pass to ACTUATING (R54). -/
theorem handRf_gone {s : State} (dark : s.rfPresent = false) (muting : s.ste.st = .muting) :
    handRf true s = enterActuating s := by
  simp [handRf, dark, rfGoneForEngine, muting]

/-- In every other case a change of RF_PRESENT has no reader. -/
theorem handRf_other {s : State} {was : Bool}
    (other : was = s.rfPresent ∨ (s.ste.st ≠ .muting ∧ s.csd.anyInFlight = false)) : handRf was s = s := by
  rcases other with same | ⟨busy, still⟩
  · simp [handRf, same]
  · have unread : rfGoneForEngine s = s := by
      unfold rfGoneForEngine
      split
      · next muting => exact absurd muting busy
      · rfl
    simp [handRf, unread, still]

/-- What the hand-over of RF_PRESENT can do. -/
theorem handRf_cases (was : Bool) (s : State) :
    handRf was s = s ∨ (s.ste.st = .muting ∧ handRf was s = enterActuating s) ∨ handRf was s = hotEvent s := by
  unfold handRf rfGoneForEngine
  split
  · split
    · next muting => exact .inr (.inl ⟨muting, rfl⟩)
    · exact .inl rfl
  · split
    · exact .inr (.inr rfl)
    · exact .inl rfl

/-- A change of a line keeps a front still: a step that passes from MUTING to ACTUATING bars the same frames. -/
theorem handRf_frontStill {s : State} (was : Bool) (q : s.frontStill) : (handRf was s).frontStill := by
  rcases handRf_cases was s with h | ⟨muting, h⟩ | h <;> rw [h]
  · exact q
  · have same : SameFront s (enterActuating s) := ⟨by simp, by simp, by simp, by simp⟩
    refine same.frontStill (same.stepWaits (by simp) (by simp) fun f => ?_) q
    obtain ⟨x, d, b, csd⟩ := enterActuating_csd s
    refine stepBarred_of_holdsStep (by simp [Ste.holdsStep, muting]) (by simp [Ste.holdsStep, enterActuating_ste]) ?_ ?_ ?_
    · rw [muting]; intro h; cases h
    · rw [csd]; exact id
    · exact reportBarred_of_same (by simp) (by simp) (by simp)
  · exact Kept.still (hotEvent_passed s).kept q

theorem signal_frontStill (f : Flag) {s : State} (q : s.frontStill) : (signal f s).frontStill := by
  have same : SameFront s (signal f s) := ⟨by simp, by simp, by simp, by simp⟩
  refine same.frontStill (same.stepWaits (by simp) (by simp) fun f => ?_) q
  exact stepBarred_of_same (by simp) (by simp) (reportBarred_of_same (by simp) (by simp) (by simp))

theorem handDoor_frontStill {s : State} (was : Bool) (q : s.frontStill) : (handDoor was s).frontStill := by
  unfold handDoor
  split
  · exact signal_frontStill _ q
  · exact q

/-! ## The trip of the door -/

theorem hotEvent_mdc (s : State) : (hotEvent s).mdc = s.mdc := (hotEvent_passed s).mdc

/-- The hand-over of RF_PRESENT requests no trip, and changes neither the trip mask nor the door. -/
theorem handRf_control (was : Bool) (s : State) :
    (handRf was s).mdc = s.mdc ∧ (handRf was s).tbs = s.tbs ∧ (handRf was s).axu = s.axu := by
  rcases handRf_cases was s with h | ⟨-, h⟩ | h <;> rw [h] <;> simp [hotEvent_mdc]

theorem signal_door_trips (s : State) : (signal .door s).mdc.trips =
    s.mdc.trips ++ (if s.tbs.runtime.tripMask.getLsbD 7 = true then [.door] else []) := by
  have mask : (latchFlag .door s).tbs.runtime.tripMask = s.tbs.runtime.tripMask := by simp
  unfold signal requestTripOf
  dsimp only [Flag.trip]
  rw [mask]
  split <;> simp [requestTrip]

/-- The door's hand-over touches the flags and the trip requests alone. -/
theorem handDoor_frame (was : Bool) (s : State) :
    (handDoor was s).axu = s.axu ∧ (handDoor was s).csd = s.csd ∧ (handDoor was s).ste = s.ste ∧
      (handDoor was s).tbs = s.tbs ∧ (handDoor was s).evu.hotCount = s.evu.hotCount ∧
      (handDoor was s).mdc.mode = s.mdc.mode ∧ (handDoor was s).mdc.outstanding = s.mdc.outstanding := by
  unfold handDoor
  split <;> simp

theorem handDoor_trips (was : Bool) (s : State) : (handDoor was s).mdc.trips = s.mdc.trips ++
    (if was = false ∧ s.doorIn = true ∧ s.tbs.runtime.tripMask.getLsbD 7 = true then [.door] else []) := by
  by_cases opened : was = false ∧ s.doorIn = true
  · obtain ⟨rfl, opened⟩ := opened
    simp [handDoor_opened opened, signal_door_trips, opened]
  · rw [handDoor_other (by simpa [imp_iff_not_or] using opened), if_neg (by tauto), List.append_nil]

theorem handDoor_flags (was : Bool) (s : State) {f : Flag} (h : s.isLatched f = true) : (handDoor was s).isLatched f = true := by
  unfold handDoor
  split
  · exact signal_flags .door s _ h
  · exact h

/-- A safe drive completes by the mode, the outstanding elements and the Coil Scheduler alone. -/
theorem safeComplete_of_same {s t : State} (mode : t.mdc.mode = s.mdc.mode)
    (outstanding : t.mdc.outstanding = s.mdc.outstanding) (csd : t.csd = s.csd) : safeComplete t = safeComplete s := by
  unfold safeComplete
  rw [mode, outstanding, csd]

/-! ## The hot event -/

theorem hotEvent_hotCount (s : State) : (hotEvent s).evu.hotCount = min (s.evu.hotCount + 1) 65535 := by
  unfold hotEvent
  dsimp only
  split <;> simp [countUp, Config.counterCap]

theorem hotEvent_isLatched (s : State) : (hotEvent s).isLatched .hot = true := by
  unfold hotEvent
  dsimp only
  split <;> exact signal_isLatched .hot _

theorem hotEvent_hot {s : State} (holds : s.ste.holdsStep = true) : (hotEvent s).ste.hot = true := by
  simp [hotEvent, holds]

/-- Settles O52: what each reader does, and that the event's consequences keep it. -/
theorem lineChangesAreHandedOn : Obligations.LineChangesAreHandedOn := by
  intro time line level s running q calm x
  have ran := event_running (lineEffect time line level) running
  have still : (lineEffect time line level s).frontStill := handDoor_frontStill _ (handRf_frontStill _ (by exact q))
  have k : Kept _ _ := settled_kept _ still
  have stood := settled_still _ still
  rw [lineEffect_eq] at ran k stood
  have door : (sampledState time line level s).doorIn = x.presented .doorIn := rfl
  have rf : (sampledState time line level s).rfPresent = x.presented .rfPresentIn := rfl
  have safe : safeComplete (sampledState time line level s) = false := calm.2
  generalize hr : handRf s.rfPresent (sampledState time line level s) = r at ran k stood
  obtain ⟨mdc, tbs, axu⟩ : r.mdc = s.mdc ∧ r.tbs = s.tbs ∧ r.axu = x := hr ▸ handRf_control _ _
  have doorAfter : r.doorIn = x.presented .doorIn := by rw [State.doorIn, axu]
  obtain ⟨axu', csd', ste', tbs', hotCount', mode', outstanding'⟩ := handDoor_frame s.doorIn r
  have trips' := handDoor_trips s.doorIn r
  generalize hd : handDoor s.doorIn r = t at ran k stood axu' csd' ste' tbs' hotCount' mode' outstanding' trips'
  refine ⟨_, congrArg Host.Outcome.next ran, k.2.lines.trans (axu'.trans axu), ?_, ?_, ?_, ?_, ?_⟩
  · rw [k.2.requests.1, trips', mdc, tbs, doorAfter]
  · intro shut opened
    refine k.2.flags _ ?_
    rw [← hd, shut, handDoor_opened (doorAfter.trans opened)]
    exact signal_isLatched .door r
  · intro dark lit flight
    have hot : r = hotEvent (sampledState time line level s) := by rw [← hr, dark]; exact handRf_returned (rf.trans lit) flight
    have csd : r.csd = s.csd := by simp [hot, sampledState]
    have still := stood ⟨by rw [csd', csd]; exact calm.1,
      (safeComplete_of_same mode' outstanding' csd').trans ((safeComplete_of_same (by rw [mdc]) (by rw [mdc]) csd).trans calm.2)⟩
    refine ⟨?_, k.2.flags _ ?_, fun holds => ?_⟩
    · rw [still.events, hotCount', hot, hotEvent_hotCount]
      rfl
    · rw [← hd]
      exact handDoor_flags _ _ (hot ▸ hotEvent_isLatched _)
    · rw [still.marks.1, ste', hot]
      exact hotEvent_hot holds
  · intro lit dark muting
    have gone : r = enterActuating (sampledState time line level s) := by rw [← hr, lit]; exact handRf_gone (rf.trans dark) muting
    have ste : t.ste = { s.ste with st := .actuating, grace := none } := by rw [ste', gone, enterActuating_ste]; rfl
    refine ⟨k.2.state (by rw [ste]) (by decide), by rw [k.2.timers.1, ste], fun i q target fitted => k.2.driven ?_ ?_⟩
    · rw [safeComplete_of_same mode' outstanding' csd', gone, enterActuating_safeComplete, safe]
    · rw [csd', gone]
      exact enterActuating_pending target fitted
  · intro sameRf sameDoor
    have unread : r = sampledState time line level s := by
      rw [← hr]
      exact handRf_other sameRf
    have shut : t = r := by
      rw [← hd]
      exact handDoor_other (by rw [doorAfter]; exact sameDoor)
    rw [shut, unread] at k stood ⊢
    have chain : KeptChain (s.advance time) (sampledState time line level s) :=
      .ofSame rfl rfl rfl rfl rfl rfl rfl rfl rfl
    have still := stood calm
    exact ⟨chain.trans k.1, k.2, still.marks, still.coil, still.tables, still.events, still.control⟩

end Sys2Proof.Machine
end

section
/-! SUPPORT. A frame that arrives with nothing before it: it waits where it is not examined; where it is released it goes on, becomes an
echo, waits for one, or is discarded; and a step that is taken leaves what `Taken` says (R49 to R51, R139 to R142). -/

namespace Sys2Proof.Machine

/-! ## The arrival -/

/-- The entry of a frame that has just arrived. -/
abbrev arrivedEntry (bs : List Byte) : FwdEntry := { frame := parseFrame bs, status := .waiting, own := false }

theorem isStep_kind {f : Frame} (step : f.isStep = true) : f.kind ≠ kindUrgent := by
  simp only [Frame.isStep, Bool.and_eq_true, beq_iff_eq] at step
  rw [step.1.1]
  decide

/-- A sound step frame that arrives on Port A joins the empty Forward Queue (R137). -/
theorem exec_stepReceived {time : Nat} {bs : List Byte} {s : State} (running : s.running) (link : s.lnk.a.link = .up)
    (empty : s.fwq.queue = []) (sound : frameCheckOk s.lnk.sense bs = true) (step : (parseFrame bs).isStep = true) :
    ∃ m w l, exec (.frameReceived time .a bs) s =
      .next (settled ((s.advance time).requeued m w l [arrivedEntry bs])) := by
  obtain ⟨m, w, l, -, appended⟩ := appendFwd_first (parseFrame bs) (s.advance time) empty
  refine ⟨m, w, l, congrArg Host.Outcome.next ((event_running _ running).trans (congrArg settled ?_))⟩
  have received : receiveFrame .a bs (s.advance time) = receiveFwd (parseFrame bs) (s.advance time) := by
    simp [receiveFrame, link, sound, placeFrame, isStep_kind step]
  rw [received, receiveFwd, if_pos (by simp [empty, Config.fwdCapacity]), appended]

theorem ChainOnly.requeued (s : State) (m : Mark) (w : List WireItem) (l : List Mark) (q : List FwdEntry) :
    ChainOnly s (s.requeued m w l q) := ⟨rfl, rfl, rfl, rfl, rfl, rfl, rfl, rfl, rfl, rfl⟩

theorem calm_of_complete {s : State} (c : s.complete) : s.calm := by
  obtain ⟨-, pass, -, safe, -⟩ := complete_parts c
  refine ⟨passDue_of_complete pass, ?_⟩
  unfold completeSafe at safe
  split at safe
  · split at safe <;> cases safe
  · next incomplete => simpa using incomplete

/-- Where nothing is due, an occupied outbox has no room in the Return Queue (R145). -/
theorem outboxRoom_of_complete {s : State} (c : s.complete) (echo : s.rtq.echo ≠ none) : s.outboxRoom = false := by
  obtain ⟨-, -, -, -, -, -, -, -, pass, -⟩ := complete_parts c
  have some_echo : s.rtq.echo.isSome = true := Option.isSome_iff_ne_none.mpr echo
  simpa [admissionPass, State.outboxReady, some_echo] using pass

theorem startTxA_requeued {s : State} (none_due : startTxA s = none) (m : Mark) (w : List WireItem) (l : List Mark)
    (q : List FwdEntry) : startTxA (s.requeued m w l q) = none := by
  unfold startTxA at none_due ⊢
  by_cases ready : s.lnk.a.link = .up ∧ s.lnk.a.tx = none ∧ s.lnk.a.received = .go
  · rw [if_pos ready] at none_due
    split at none_due
    · cases none_due
    · next empty => simp [State.requeued, empty]
  · exact if_neg ready

theorem startTxB_requeued {s : State} (none_due : startTxB s = none) (m : Mark) (w : List WireItem) (l : List Mark)
    {x : FwdEntry} (unreleased : x.status ≠ .released) : startTxB (s.requeued m w l [x]) = none := by
  unfold startTxB at none_due ⊢
  by_cases ready : s.lnk.b.link = .up ∧ s.lnk.b.tx = none
  · rw [if_pos ready] at none_due
    cases slot : s.fwq.slot with
    | some f => simp [slot] at none_due
    | none => simp [State.requeued, slot, unreleased]
  · exact if_neg ready

/-- A frame that arrives where nothing is due, and is not examined, waits; nothing else is brought about. -/
theorem settled_requeued {s : State} (c : s.complete) (m : Mark) (w : List WireItem) (l : List Mark) {x : FwdEntry}
    (waiting : x.status = .waiting) (unexamined : examineHead (s.requeued m w l [x]) = none) :
    settled (s.requeued m w l [x]) = s.requeued m w l [x] := by
  obtain ⟨-, -, -, -, -, -, report, -, pass, txB, txA⟩ := complete_parts c
  have pass' : admissionPass (s.requeued m w l [x]) = none := by
    have same : (s.requeued m w l [x]).outboxReady = s.outboxReady := rfl
    unfold admissionPass at pass ⊢
    rw [same]
    split at pass
    · cases pass
    · next unready => exact if_neg unready
  refine settle_complete _ _ ?_
  rw [State.complete, (ChainOnly.requeued s m w l [x]).react_eq c, offerReport_requeued m w l [x] report, unexamined, pass',
    startTxB_requeued txB m w l (by simp [waiting]), startTxA_requeued txA]
  rfl

/-- A frame that arrives where nothing is due, and is examined by an idle agent, is treated first. -/
theorem settled_treated {s : State} (c : s.complete) (idle : s.mga = .idle) (m : Mark) (w : List WireItem) (l : List Mark)
    {x : FwdEntry} (waiting : x.status = .waiting) {t : State} (treated : treatHead x (s.requeued m w l [x]) = some t) :
    settled (s.requeued m w l [x]) = settle 4095 t := by
  unfold settled Config.settleFuel
  rw [settle, react_arrival c idle x m w l waiting treated]

end Sys2Proof.Machine
end

section
/-! SUPPORT. A frame that is released with nothing behind it, and a step that is taken, when the consequences of the event are drawn. -/

namespace Sys2Proof.Machine

/-! ## A step frame that waits for the echo outbox (R142) -/

/-- A released step frame stands alone at the chain end of an addressed node, behind an echo that finds no room. -/
structure EchoWaits (x : FwdEntry) (s : State) : Prop where
  head : s.fwq.queue = [x]
  released : x.status = .released
  step : x.frame.isStep = true
  down : s.lnk.b.link = .down
  addressed : s.lnk.transparent = false
  occupied : s.rtq.echo ≠ none
  full : s.outboxRoom = false

theorem EchoWaits.quiet {x : FwdEntry} {s : State} (w : EchoWaits x s) : s.headQuiet := by
  intro y hy
  rw [w.head, List.mem_singleton] at hy
  rw [hy, w.released]
  decide

/-- No reaction of a calm part deals with the frame or admits the echo. -/
theorem EchoWaits.react {x : FwdEntry} {s t : State} (w : EchoWaits x s) (c : s.calm) (h : react s = some t) :
    t.fwq.queue = s.fwq.queue ∧ t.rtq.echo = s.rtq.echo ∧ t.rtq.queue = s.rtq.queue := by
  have undealt : dealAtChainEnd s = none := dealAtChainEnd_eq_none_iff.mpr fun y l _ head _ => by
    rw [w.head] at head
    cases head
    exact ⟨w.step, w.addressed, w.occupied⟩
  obtain hr | ⟨v, hv, rfl | rfl⟩ | he | ha | ho | ⟨v, hv, -⟩ | hp | hb | ha := react_calm_cases (.inl w.quiet) c h
  · simp [restartEvaluation_frame s hr]
  · simp [verifyAction_frame s hv]
  · simp [verifyAction_frame s hv]
  · unfold endHold at he
    split at he <;> cases he
    simp
  · unfold offerAnswer at ha
    split at ha <;> cases ha
    simp
  · unfold offerReport at ho
    split at ho <;> cases ho
    simp
  · rw [undealt] at hv; cases hv
  · simp [admissionPass, State.outboxReady, w.full] at hp
  · simp [startTxB_frame s hb]
  · simp [startTxA_frame s ha]

/-- So the frame and the echo stand when the consequences of the event are drawn. -/
theorem EchoWaits.settle {x : FwdEntry} {s : State} (w : EchoWaits x s) (c : s.calm) (n : Nat) :
    (settle n s).fwq.queue = [x] ∧ (settle n s).rtq.echo = s.rtq.echo := by
  have step : ∀ s t, (EchoWaits x s ∧ s.calm) → Machine.react s = some t →
      (EchoWaits x t ∧ t.calm) ∧ t.rtq.echo = s.rtq.echo := by
    rintro s t ⟨w, c⟩ h
    obtain ⟨queue, echo, back⟩ := w.react c h
    have k := react_kept (.inl w.quiet) h
    refine ⟨⟨⟨queue.trans w.head, w.released, w.step, k.1.links.2.trans w.down, ?_, by rw [echo]; exact w.occupied, ?_⟩,
      (react_still (.inl w.quiet) c h).calm c⟩, echo⟩
    · rw [Lnk.transparent, k.1.straps.1]; exact w.addressed
    · rw [State.outboxRoom, State.retFree, back, k.1.straps.2.1]; exact w.full
  obtain ⟨⟨w', -⟩, echo⟩ := settle_keeps (R := fun s t => t.rtq.echo = s.rtq.echo) (fun _ => rfl)
    (fun _ _ _ h g => g.trans h) step n s ⟨w, c⟩
  exact ⟨w'.head, echo⟩

/-! ## A released frame with nothing behind it -/

/-- What becomes of a frame that is released with nothing behind it, in an event that moves nothing else: from the state `r` of its
release to the state `u`. -/
structure SentOn (r : State) (x : FwdEntry) (u : State) : Prop where
  matrix : KeptMatrix r u
  still : Still r u
  reports : ∀ f, r.reported f → u.reported f
  forwarded : r.lnk.b.link = .up → u.fwq.queue = [{ x with status := .released }]
  echoed : r.lnk.b.link = .down → x.frame.isStep = true → r.lnk.transparent = false → r.rtq.echo = none →
    u.fwq.queue = [] ∧ u.echoed (echoOf r.lnk x.frame)
  waits : r.lnk.b.link = .down → x.frame.isStep = true → r.lnk.transparent = false → r.rtq.echo ≠ none →
    r.outboxRoom = false → u.fwq.queue = [{ x with status := .released }] ∧ u.rtq.echo = r.rtq.echo
  discarded : r.lnk.b.link = .down → (x.frame.isStep = false ∨ r.lnk.transparent = true) →
    u.fwq.queue = [] ∧ u.lnk.endDiscards = countUp r.lnk.endDiscards

theorem releaseHead_sentOn {r : State} {x : FwdEntry} (alone : r.fwq.queue.tail = []) (c : r.calm) (n : Nat) :
    SentOn r x (settle n (releaseHead x r)) := by
  have quiet : (releaseHead x r).headQuiet := by
    intro y hy
    rcases releaseHead_queue x r with h | ⟨-, h⟩ <;> simp [h, alone] at hy
    simp [hy]
  have calm : (releaseHead x r).calm := by unfold State.calm safeComplete at *; simpa using c
  have k := settle_kept n _ (.inl quiet)
  have kept : KeptMatrix r (releaseHead x r) := by apply KeptMatrix.ofSame <;> simp
  have still : Still r (releaseHead x r) := by constructor <;> simp
  have gone : (releaseHead x r).fwq.queue = [] → (settle n (releaseHead x r)).fwq.queue = [] := fun e =>
    List.suffix_nil.mp (e ▸ k.1.forward)
  refine ⟨kept.trans k.2, still.trans (settle_still n _ (.inl quiet) calm), fun f h => k.1.reports f ?_, fun up => ?_,
    fun down step addressed empty => ?_, fun down step addressed occupied full => ?_, fun down other => ?_⟩
  · simpa [State.reported] using h
  · rw [(k.1.forwardKept (.inl (by simpa using up))).1, releaseHead_up up]
    simp [alone]
  · obtain ⟨queue, echo⟩ := releaseHead_echo down step addressed empty
    exact ⟨gone (queue.trans alone), k.1.echoes _ (.inl echo)⟩
  · have waits := releaseHead_waits down step addressed occupied
    rw [waits] at calm ⊢
    have w : EchoWaits { x with status := .released } (setHead { x with status := .released } r) :=
      ⟨by simp [alone], rfl, step, down, addressed, occupied, full⟩
    exact w.settle calm n
  · obtain ⟨queue, count⟩ := releaseHead_discard down other
    have left := queue.trans alone
    exact ⟨gone left, by rw [(k.1.forwardKept (.inr (by simp [left]))).2, count]⟩

/-! ## A step that is taken (R50, R51) -/

/-- What a take leaves, seen from a state with the same clock, destinations, possible sets and step number. -/
theorem Taken.congr {e r u : State} {f : Frame} {p : PathRec} (now : r.now = e.now)
    (coil : r.csd.pulses = e.csd.pulses ∧ r.csd.recorded = e.csd.recorded) (tables : r.tbs = e.tbs)
    (serial : r.ste.serial = e.ste.serial) (h : Taken r f p u) : Taken e f p u := by
  have destination : r.csd.destination = e.csd.destination := by
    funext i
    rw [Csd.destination, Csd.destination, coil.1, coil.2]
  have sets : possible r.tbs r.csd = possible e.tbs e.csd := by
    funext i
    unfold possible
    rw [coil.1, coil.2, tables]
  obtain ⟨v, started, holds⟩ := h.evaluation
  exact
    { h with
      changing := fun i => by rw [h.changing i, destination]
      takeAt := h.takeAt.trans now
      serial := h.serial.trans (congrArg (· + 1) serial)
      evaluation := ⟨v, started, fun i q => by rw [holds i q, sets]⟩ }

/-- The step that a take records (R50, R51). -/
theorem takeRecord_ste (x : FwdEntry) (p : PathRec) (r : State) : (takeRecord x p r).ste = { r.ste with
    st := .checking, ident := some (identOf x.frame), snapshot := some p, changing := changingSet p r.csd,
    landed := Vector.replicate 48 false, takeAt := r.now, hot := false, wearFlag := false, outcome := none,
    settledMark := false, serial := r.ste.serial + 1 } := rfl

@[simp] theorem takeRecord_queue (x : FwdEntry) (p : PathRec) (r : State) :
    (takeRecord x p r).fwq.queue = { x with status := .held } :: r.fwq.queue.tail := rfl

theorem takeRecord_evaluation (x : FwdEntry) (p : PathRec) (r : State) : (takeRecord x p r).rev.evaluation =
    some { sets := snapshotSets (takeRecord x p r), since := r.now, walk := walkFrom 0 } := rfl

/-- The evaluation of a step that has just been taken is not outdated (R16, R23). -/
theorem takeRecord_fresh (x : FwdEntry) (p : PathRec) (r : State) : restartEvaluation (takeRecord x p r) = none := by
  rw [restartEvaluation_eq_none_iff]
  intro v started e q hq
  rw [takeRecord_evaluation] at started
  have sets : v.sets = snapshotSets (takeRecord x p r) := by rw [← Option.some.inj started]
  rw [sets, mem_snapshotSets]
  exact .inl hq

theorem takeRecord_calm {r : State} (x : FwdEntry) (p : PathRec) (c : r.calm) : (takeRecord x p r).calm := by
  unfold State.calm safeComplete at *
  simpa using c

theorem takeRecord_quiet {r : State} (x : FwdEntry) (p : PathRec) (alone : r.fwq.queue.tail = []) :
    (takeRecord x p r).headQuiet := by
  intro y hy
  rw [takeRecord_queue, alone, List.mem_singleton] at hy
  simp [hy]

/-- A step that is taken with nothing behind its frame, in an event that moves nothing else. -/
theorem takeRecord_taken {r : State} {x : FwdEntry} (p : PathRec) (alone : r.fwq.queue.tail = []) (c : r.calm)
    (own : x.own = false) (n : Nat) : Taken r x.frame p (settle n (takeRecord x p r)) := by
  have quiet := takeRecord_quiet x p alone
  have k := settle_kept n _ (.inl quiet)
  have still := settle_still n _ (.inl quiet) (takeRecord_calm x p c)
  have rev := settle_rev n _ (.inl quiet) (takeRecord_calm x p c) (takeRecord_fresh x p r)
  have stands := k.2.step (.inl (by simp [takeRecord_ste]))
  obtain ⟨ident, snapshot, changing, -, -⟩ := stands.step
  rw [takeRecord_ste] at ident snapshot changing
  constructor
  case state => exact k.2.state (by rw [takeRecord_ste]) (by decide)
  case identity => exact ident
  case snapshot => exact snapshot
  case changing =>
    intro i
    rw [changing]
    simp only [changingSet, PathRec.masks, Fin.getElem_fin, Vector.getElem_ofFn]
    by_cases masked : p.mask.getLsbD (bankOf i).val = true <;> by_cases there : r.csd.destination i = some p.targets[i] <;>
      simp_all
  case takeAt => rw [k.2.result.2.2, takeRecord_ste]
  case flags => rw [still.marks.1, still.marks.2, takeRecord_ste]; exact ⟨rfl, rfl⟩
  case outcome => rw [k.2.result.1, k.2.marked.1, takeRecord_ste]; exact ⟨rfl, rfl⟩
  case serial => rw [k.2.marked.2.2, takeRecord_ste]
  case idleTimer => exact stands.idleTimer
  case evaluation =>
    refine ⟨_, (congrArg Rev.evaluation rev).trans (takeRecord_evaluation x p r), fun i q => ?_⟩
    rw [changing]
    exact mem_snapshotSets
  case held =>
    rw [(k.1.forwardKept (.inr (by simp))).1, takeRecord_queue, alone, ← own]

end Sys2Proof.Machine
end

section
/-! PROOF. A step frame that arrives outside RUN, in a transparent part, or while the agent is busy (R48, R59, R135, R139, R142; O17). -/

namespace Sys2Proof.Machine

/-- A frame that joins the Forward Queue moves nothing else. -/
theorem requeued_kept (s : State) (m : Mark) (w : List WireItem) (l : List Mark) (q : List FwdEntry) :
    KeptMatrix s (s.requeued m w l q) ∧ Still s (s.requeued m w l q) :=
  ⟨.ofSame rfl rfl rfl rfl rfl rfl rfl rfl rfl, ⟨⟨rfl, rfl⟩, rfl, rfl, rfl, rfl⟩⟩

theorem requeued_calm {s : State} (c : s.calm) (m : Mark) (w : List WireItem) (l : List Mark) (q : List FwdEntry) :
    (s.requeued m w l q).calm := (requeued_kept s m w l q).2.calm c

/-- While the agent is busy no head is examined (R139, R151). -/
theorem examineHead_busy {s : State} {r : Request} (busy : s.mga = .serving r) : examineHead s = none := by
  simp [examineHead, busy]

/-- Stamping a step frame writes the greater severity where its chain status stands, and no other field (R59). -/
theorem stamp_fields {f : Frame} (step : f.isStep = true) (n : Nat) :
    (f.stamp n).status = BitVec.ofNat 8 (max f.status.toNat n) ∧ (f.stamp n).stepIndex = f.stepIndex ∧
      (f.stamp n).tag = f.tag := by
  simp only [Frame.isStep, Bool.and_eq_true, beq_iff_eq] at step
  have long : 4 < f.payload.length := by omega
  simp [Frame.stamp, Frame.status, Frame.stepIndex, byteAt, long]

/-- A step frame examined outside RUN, or in a transparent part, is stamped SKIPPED and released (R48). -/
theorem treatHead_skipped {s : State} {x : FwdEntry} (step : x.frame.isStep = true)
    (skips : s.mdc.mode ≠ .run ∨ s.lnk.transparent = true) :
    treatHead x s = some (releaseHead { x with frame := x.frame.stamp 2, own := true } s) := by
  have skips' : (s.lnk.transparent || decide (s.mdc.mode ≠ .run)) = true := by
    rcases skips with h | h <;> simp [h]
  simp only [treatHead, step, if_true, skips']

/-- Settles O17: behind a busy agent the frame waits; an idle one's is stamped, and released as `SentOn` says. -/
theorem skippedStepsAreStamped : Obligations.SkippedStepsAreStamped := by
  refine ⟨fun time bs r s running c link busy addressed empty sound step => ?_, fun time bs s open_ sound step skips => ?_⟩
  · obtain ⟨m, w, l, ran⟩ := exec_stepReceived (time := time) running link empty sound step
    rw [settled_requeued c m w l rfl (examineHead_busy busy)] at ran
    obtain ⟨kept, still⟩ := requeued_kept (s.advance time) m w l [arrivedEntry bs]
    exact ⟨_, ran, kept, still, busy, rfl, rfl⟩
  · obtain ⟨m, w, l, ran⟩ := exec_stepReceived (time := time) open_.running open_.link open_.empty sound step
    have treated := treatHead_skipped (s := (s.advance time).requeued m w l [arrivedEntry bs]) (x := arrivedEntry bs) step skips
    rw [settled_treated open_.complete open_.idle m w l rfl treated] at ran
    obtain ⟨kept, still⟩ := requeued_kept (s.advance time) m w l [arrivedEntry bs]
    have sent := releaseHead_sentOn (r := (s.advance time).requeued m w l [arrivedEntry bs])
      (x := { arrivedEntry bs with frame := (parseFrame bs).stamp 2, own := true }) rfl
      (requeued_calm (calm_of_complete open_.complete) _ _ _ _) 4095
    obtain ⟨status, index, tag⟩ := stamp_fields step 2
    have stepped : ((parseFrame bs).stamp 2).isStep = true := (Frame.stamp_isStep _ _).trans step
    refine ⟨_, ran, kept.trans sent.matrix, still.trans sent.still, sent.matrix.result.1, sent.reports, status,
      sent.forwarded, fun down addressed free => ?_, fun down addressed occupied => ?_, fun down transparent => ?_⟩
    · have echoed := sent.echoed down stepped addressed free
      rw [echoOf, status, index, tag] at echoed
      exact echoed
    · exact sent.waits down stepped addressed occupied (outboxRoom_of_complete (s := s.advance time) open_.complete occupied)
    · exact sent.discarded down (.inr transparent)

end Sys2Proof.Machine
end

section
/-! PROOF. A step frame that arrives in RUN is taken, finds no path, or waits (R16, R49 to R51, R142; O18). -/

namespace Sys2Proof.Machine

/-- In RUN a step frame at the head of an addressed part is offered to the Step Engine. -/
theorem treatHead_offered {s : State} {x : FwdEntry} (step : x.frame.isStep = true) (run : s.mdc.mode = .run)
    (addressed : s.lnk.transparent = false) : treatHead x s = offerStep x s := by
  simp [treatHead, step, run, addressed]

theorem offerStep_idle {s : State} (idle : s.ste.st = .idle) (clear : s.csd.latch = []) (x : FwdEntry) :
    offerStep x s = some (take x s) := by
  simp [offerStep, ordinaryTake, idle, latchEmpty_iff.mpr clear]

/-- The engine leaves a step frame to wait in REPORT_WAIT and CHECKING, while it holds a step that the frame may not preempt, and
while the supply latch list is not empty (R49). -/
theorem offerStep_waits {s : State} {x : FwdEntry} (bars : s.ste.st = .reportWait ∨ s.ste.st = .checking ∨
    (s.ste.holdsStep = true ∧ (x.frame.preempt = false ∨ s.rtq.report ≠ none)) ∨ s.csd.latch ≠ []) :
    offerStep x s = none := by
  have ordinary : ordinaryTake s = false := by
    rcases bars with st | st | ⟨holds, -⟩ | latch
    · simp [ordinaryTake, st]
    · simp [ordinaryTake, st]
    · have busy : s.ste.st ≠ .idle := by intro idle; simp [Ste.holdsStep, idle] at holds
      simp [ordinaryTake, busy]
    · simp [ordinaryTake, Csd.latchEmpty, latch]
  have preemptive : preemptiveTake s x.frame = false := by
    rcases bars with st | st | ⟨-, flag | outbox⟩ | latch
    · simp [preemptiveTake, st]
    · simp [preemptiveTake, st]
    · simp [preemptiveTake, flag]
    · simp [preemptiveTake, outbox]
    · simp [preemptiveTake, Csd.latchEmpty, latch]
  simp [offerStep, ordinary, preemptive]

/-- The state that a take on an absent record leaves the frame in (R46, R50). -/
def pathlessState (s : State) : State := { s with ste.ident := none, ste.takeAt := s.now, ste.outcome := some .noPath }

theorem take_pathless {s : State} {x : FwdEntry} (absent : s.tbs.stepRecord x.frame = none) :
    take x s = releaseHead x (pathlessState s) := by
  simp [take, absent, takeNoPath, pathlessState]

theorem take_present {s : State} {x : FwdEntry} {p : PathRec} (present : s.tbs.stepRecord x.frame = some p) :
    take x s = takeRecord x p s := by
  simp [take, present]

/-- A take in an event that moves nothing else: the coil side, the tables, the mode and the flags stand, and no report is lost. -/
theorem take_stands {r : State} {x : FwdEntry} (alone : r.fwq.queue.tail = []) (c : r.calm) (n : Nat) :
    (settle n (take x r)).csd = r.csd ∧ (settle n (take x r)).tbs = r.tbs ∧ (settle n (take x r)).mdc = r.mdc ∧
      (settle n (take x r)).evu = r.evu ∧ ∀ f, r.reported f → (settle n (take x r)).reported f := by
  cases found : r.tbs.stepRecord x.frame with
  | none =>
    rw [take_pathless found]
    have sent := releaseHead_sentOn (r := pathlessState r) (x := x) alone c n
    exact ⟨sent.still.coil, sent.still.tables, sent.still.control, sent.still.events, sent.reports⟩
  | some p =>
    rw [take_present found]
    have quiet := takeRecord_quiet x p alone
    have still := settle_still n _ (.inl quiet) (takeRecord_calm x p c)
    exact ⟨still.coil, still.tables, still.control, still.events, (settle_kept n _ (.inl quiet)).1.reports⟩

/-- Settles O18: an idle engine's take leaves what `Taken` or `SentOn` says, and a frame that it may not take waits. -/
theorem stepsAreTaken : Obligations.StepsAreTaken := by
  intro time bs s open_ sound step run addressed f record noPath
  obtain ⟨m, w, l, ran⟩ := exec_stepReceived (time := time) open_.running open_.link open_.empty sound step
  have calm := requeued_calm (calm_of_complete open_.complete) m w l [arrivedEntry bs]
  have offered := treatHead_offered (s := (s.advance time).requeued m w l [arrivedEntry bs]) (x := arrivedEntry bs) step run addressed
  refine ⟨_, ran, fun idle clear => ?_, fun bars => ?_⟩
  · rw [offerStep_idle (by exact idle) (by exact clear)] at offered
    rw [settled_treated open_.complete open_.idle m w l rfl offered]
    obtain ⟨csd, tbs, mdc, evu, -⟩ := take_stands (x := arrivedEntry bs) rfl calm 4095
    refine ⟨csd, tbs, mdc, evu, fun p present => ?_, ?_⟩
    · rw [take_present (by exact present)]
      have taken := takeRecord_taken (r := (s.advance time).requeued m w l [arrivedEntry bs]) (x := arrivedEntry bs) p rfl
        calm rfl 4095
      exact taken.congr (r := (s.advance time).requeued m w l [arrivedEntry bs]) rfl ⟨rfl, rfl⟩ rfl rfl
    · have sent := releaseHead_sentOn (r := pathlessState ((s.advance time).requeued m w l [arrivedEntry bs]))
        (x := arrivedEntry bs) rfl calm 4095
      have same : KeptMatrix noPath (pathlessState ((s.advance time).requeued m w l [arrivedEntry bs])) :=
        .ofSame rfl rfl rfl rfl rfl rfl rfl rfl rfl
      have kept := same.trans sent.matrix
      refine ⟨fun absent up => ?_, fun absent down free => ?_, fun absent down occupied => ?_⟩ <;>
        rw [take_pathless (by exact absent)]
      · exact ⟨sent.forwarded up, kept⟩
      · obtain ⟨gone, echoed⟩ := sent.echoed down step addressed free
        exact ⟨gone, echoed, kept⟩
      · have full := outboxRoom_of_complete (s := s.advance time) open_.complete occupied
        obtain ⟨head, echo⟩ := sent.waits down step addressed occupied full
        exact ⟨head, echo, kept⟩
  · rw [offerStep_waits (by exact bars)] at offered
    have unexamined : examineHead ((s.advance time).requeued m w l [arrivedEntry bs]) = none := by
      have idle : ((s.advance time).requeued m w l [arrivedEntry bs]).mga = .idle := open_.idle
      have head : ((s.advance time).requeued m w l [arrivedEntry bs]).fwq.queue = [arrivedEntry bs] := rfl
      simp only [examineHead, idle, head, offered]
    rw [settled_requeued open_.complete m w l rfl unexamined]
    obtain ⟨kept, still⟩ := requeued_kept (s.advance time) m w l [arrivedEntry bs]
    exact ⟨rfl, rfl, rfl, open_.idle, kept, still⟩

end Sys2Proof.Machine
end

section
/-! PROOF. A preemptive take ends the step in progress and takes the new one, or finds no path (R45, R49, R50, R60, R63, R77; O19). -/

namespace Sys2Proof.Machine

/-! ## The end of the step in progress -/

/-- A step that ends unsettled with the report outbox empty leaves the engine in IDLE, its report in the outbox unless it is QUIET. -/
theorem endStep_placed {s : State} {o : StepOutcome} {i : StepIdent} (unsettled : o.isSettled = false) (reports : o ≠ .noPath)
    (ident : s.ste.ident = some i) (outbox : s.rtq.report = none) :
    (endStep o s).ste.st = .idle ∧ (i.quiet = false → (endStep o s).rtq.report =
      some (reportFrame s.lnk i.tag i.index o s.ste.hot s.ste.wearFlag (min (s.now - s.ste.takeAt) Config.elapsedCap) [])) := by
  have ste := endingAt_ste o s
  have ident' : (endingAt o s).ste.ident = some i := by rw [ste]; exact ident
  rw [endStep_eq_finish]
  cases quiet : i.quiet with
  | true =>
    rw [finishStep_quiet (fun j h => by rw [ident'] at h; cases h; exact quiet)]
    simp
  | false =>
    rw [finishStep_unsettled ident' quiet unsettled,
      buildReport_placed (s := { endingAt o s with ste.st := .reportWait }) (i := i) (o := o) [] ident' (by simp [ste]) reports rfl
        (by simp [endingAt_rtq, outbox])]
    simp [State.stepReport, reportFrame, ownFrame, Lnk.addrByte, ste]

/-- The state in which a preemptive take finds the engine: the pending launches of a step in ACTUATING cancelled, and the step in
progress ended (R63, R77). -/
def preemptedState (s : State) : State := endStep .preempted (if s.ste.st = .actuating then cancelPending s else s)

theorem preemptAndTake_eq (x : FwdEntry) (s : State) : preemptAndTake x s = take x (preemptedState s) := rfl

/-- What the end of the step in progress leaves as it was, or cancels (R58, R63, R77). -/
structure Preempted (s b : State) : Prop where
  now : b.now = s.now
  tables : b.tbs = s.tbs
  control : b.mdc = s.mdc
  due : b.csd.passDue = s.csd.passDue
  coil : b.csd.pulses = s.csd.pulses ∧ b.csd.recorded = s.csd.recorded ∧ b.csd.latch = s.csd.latch
  pending : ∀ e : Elem, b.csd.pending[e] = if s.ste.st = .actuating then none else s.csd.pending[e]
  serial : b.ste.serial = s.ste.serial
  marks : b.ste.settledMark = s.ste.settledMark ∧ b.ste.hot = s.ste.hot ∧ b.ste.wearFlag = s.ste.wearFlag
  evaluation : b.rev.evaluation = none
  fault : b.isLatched .stepFault = true
  straps : b.lnk.addr = s.lnk.addr ∧ b.lnk.margin = s.lnk.margin
  link : b.lnk.b.link = s.lnk.b.link
  queue : b.fwq.queue = s.fwq.queue
  echo : b.rtq.echo = s.rtq.echo
  back : b.rtq.queue = s.rtq.queue

theorem preemptedState_preempted {s : State} (free : ∀ x ∈ s.fwq.queue.head?, x.status ≠ .held) :
    Preempted s (preemptedState s) := by
  obtain ⟨c, hc⟩ : ∃ c, c = if s.ste.st = .actuating then cancelPending s else s := ⟨_, rfl⟩
  have cancelled : c.now = s.now ∧ c.tbs = s.tbs ∧ c.mdc = s.mdc ∧ c.lnk = s.lnk ∧ c.fwq = s.fwq ∧ c.rtq = s.rtq ∧
      c.ste = s.ste ∧ c.csd.passDue = s.csd.passDue ∧ c.csd.pulses = s.csd.pulses ∧ c.csd.recorded = s.csd.recorded ∧
      c.csd.latch = s.csd.latch ∧
      ∀ e : Elem, c.csd.pending[e] = if s.ste.st = .actuating then none else s.csd.pending[e] := by
    rw [hc]
    split <;> simp [cancelPending, Targets.none]
  obtain ⟨now, tbs, mdc, lnk, fwq, rtq, ste, due, pulses, recorded, latch, pending⟩ := cancelled
  have ended : preemptedState s = endStep .preempted c := by rw [preemptedState, hc]
  have same : endingAt .preempted c = recordOutcome .preempted c := releaseHeld_of_not_held (by simpa [fwq] using free) _
  obtain ⟨-, -, -, -, mark, hot, wear, serial, rtq', -, -⟩ := finishStep_marks .preempted (endingAt .preempted c)
  rw [← endStep_eq_finish] at mark hot wear serial rtq'
  rw [ended]
  constructor
  case now => simp [now]
  case tables => simp [tbs]
  case control => simp [endStep_control, mdc]
  case due => simp [due]
  case coil => simp [pulses, recorded, latch]
  case pending => simpa using pending
  case serial => rw [serial, endingAt_ste, ste]
  case marks => rw [mark, hot, wear, endingAt_ste, ste]; exact ⟨rfl, rfl, rfl⟩
  case evaluation => simp
  case fault =>
    rw [endStep_eq_finish, same]
    simpa [State.isLatched] using recordOutcome_fault (o := .preempted) (by decide) c
  case straps => simp [endStep_eq_finish, lnk]
  case link => simp [lnk]
  case queue => rw [endStep_queue (by simpa [fwq] using free), fwq]
  case echo => rw [rtq', same]; simp [recordOutcome_rtq, rtq]
  case back => rw [rtq', same]; simp [recordOutcome_rtq, rtq]

theorem preemptedState_placed {s : State} {i : StepIdent} (ident : s.ste.ident = some i) (outbox : s.rtq.report = none) :
    (preemptedState s).ste.st = .idle ∧ (i.quiet = false → (preemptedState s).rtq.report =
      some (reportFrame s.lnk i.tag i.index .preempted s.ste.hot s.ste.wearFlag
        (min (s.now - s.ste.takeAt) Config.elapsedCap) [])) := by
  unfold preemptedState
  split
  · exact endStep_placed (s := cancelPending s) rfl (by decide) ident outbox
  · exact endStep_placed rfl (by decide) ident outbox

theorem Preempted.calm {s b : State} (h : Preempted s b) (c : s.calm) : b.calm := by
  unfold State.calm safeComplete Csd.anyInFlight Csd.latchEmpty at *
  have flight : b.csd.inTransit = s.csd.inTransit := by funext e; rw [Csd.inTransit, Csd.inTransit, h.coil.1]
  rwa [h.due, h.control, flight, h.coil.2.2]

/-! ## The take -/

theorem offerStep_preempts {s : State} {x : FwdEntry}
    (busy : s.ste.st = .muting ∨ s.ste.st = .actuating ∨ s.ste.st = .settling) (flag : x.frame.preempt = true)
    (outbox : s.rtq.report = none) (clear : s.csd.latch = []) : offerStep x s = some (take x (preemptedState s)) := by
  have latch := latchEmpty_iff.mpr clear
  rw [← preemptAndTake_eq]
  rcases busy with st | st | st <;> simp [offerStep, ordinaryTake, preemptiveTake, st, flag, outbox, latch]

/-- A take on an absent record that finds the engine in IDLE leaves it there, with the outcome NO_PATH and no identity (R50). -/
theorem pathless_idle {b u : State} {x : FwdEntry} (idle : b.ste.st = .idle) (gone : b.rev.evaluation = none)
    (sent : SentOn (pathlessState b) x u) :
    u.ste.st = .idle ∧ u.ste.ident = none ∧ u.ste.outcome = some .noPath ∧ u.ste.takeAt = b.now ∧
      u.ste.settledMark = b.ste.settledMark ∧ u.ste.hot = b.ste.hot ∧ u.ste.wearFlag = b.ste.wearFlag ∧
      u.rev.evaluation = none := by
  have stands := (sent.matrix.step (.inl (by simp [pathlessState, idle]))).step
  have evaluating := sent.matrix.evaluating
  exact ⟨sent.matrix.state idle (by decide), stands.1, sent.matrix.result.1, sent.matrix.result.2.2, sent.matrix.marked.1,
    sent.still.marks.1, sent.still.marks.2, by simpa [pathlessState, gone] using evaluating⟩

/-- Settles O19: the take finds the engine in IDLE with the step in progress ended, in a part that moves nothing else. -/
theorem preemptiveTakesEndTheStep : Obligations.PreemptiveTakesEndTheStep := by
  intro time bs i s open_ sound step flag run addressed busy outbox clear ident f record
  obtain ⟨m, w, l, ran⟩ := exec_stepReceived (time := time) open_.running open_.link open_.empty sound step
  have calm := requeued_calm (calm_of_complete open_.complete) m w l [arrivedEntry bs]
  have treated := (treatHead_offered (s := (s.advance time).requeued m w l [arrivedEntry bs]) (x := arrivedEntry bs) step run
    addressed).trans (offerStep_preempts busy flag outbox clear)
  rw [settled_treated open_.complete open_.idle m w l rfl treated] at ran
  have h := preemptedState_preempted (s := (s.advance time).requeued m w l [arrivedEntry bs]) (by rintro x ⟨⟩; simp)
  obtain ⟨idle, report⟩ := preemptedState_placed (s := (s.advance time).requeued m w l [arrivedEntry bs]) ident outbox
  generalize preemptedState ((s.advance time).requeued m w l [arrivedEntry bs]) = b at ran h idle report
  have alone : b.fwq.queue.tail = [] := by rw [h.queue]; rfl
  have addressed' : b.lnk.transparent = false := by rw [Lnk.transparent, h.straps.1]; exact addressed
  obtain ⟨csd, tbs, mdc, evu, reports⟩ := take_stands (x := arrivedEntry bs) alone (h.calm calm) 4095
  refine ⟨_, ran, fun p present => ?_, fun absent => ?_, by rw [csd]; exact h.coil.1, by rw [csd]; exact h.coil.2.1, tbs.trans h.tables,
    mdc.trans h.control, by rw [csd]; exact h.pending, by rw [State.isLatched, evu]; exact h.fault,
    fun loud => reports _ (.inr (.inl (report loud)))⟩
  · rw [take_present (by rw [h.tables]; exact present)]
    exact (takeRecord_taken (x := arrivedEntry bs) p alone (h.calm calm) rfl 4095).congr h.now ⟨h.coil.1, h.coil.2.1⟩ h.tables h.serial
  · rw [take_pathless (by rw [h.tables]; exact absent)]
    have sent := releaseHead_sentOn (r := pathlessState b) (x := arrivedEntry bs) alone (h.calm calm) 4095
    obtain ⟨st, gone, outcome, takeAt, mark, hot, wear, evaluation⟩ := pathless_idle idle h.evaluation sent
    refine ⟨st, gone, outcome, takeAt.trans h.now, mark.trans h.marks.1, hot.trans h.marks.2.1, wear.trans h.marks.2.2, evaluation,
      fun up => sent.forwarded (h.link.trans up), fun down free => ?_, fun down occupied => ?_⟩
    · have echoed := sent.echoed (h.link.trans down) step addressed' (h.echo.trans free)
      have same : echoOf b.lnk (parseFrame bs) = echoOf s.lnk (parseFrame bs) := by
        simp only [echoOf, ownFrame, Lnk.addrByte, h.straps.1]; rfl
      rw [show (pathlessState b).lnk = b.lnk from rfl, same] at echoed
      exact echoed
    · have full : b.outboxRoom = false := by
        rw [State.outboxRoom, State.retFree, h.back, h.straps.2]
        exact outboxRoom_of_complete (s := s.advance time) open_.complete occupied
      obtain ⟨head, echo⟩ := sent.waits (h.link.trans down) step addressed' (fun free => occupied (h.echo.symm.trans free)) full
      exact ⟨head, echo.trans h.echo⟩

end Sys2Proof.Machine
end

section
/-! SUPPORT. What an operation may do to the coil load (R68, R72, R75): where no pulse is added, no bank begins to be verified and the
coil budget stands, the coils stay safe. One lemma for each operation; the launches, the starts of verifies and LOAD CORE are not
among them. -/

namespace Sys2Proof.Machine

/-- From `s` to `t` no pulse is added or begins to drive, no more current is drawn, the budget stands, and no bank begins to be
verified. -/
structure CoilEased (s t : State) : Prop where
  flights : ∀ e, t.csd.inTransit e = true → s.csd.inTransit e = true
  drivers : ∀ e, t.csd.isDriving e = true → s.csd.isDriving e = true
  drawn : ∀ e, t.csd.drawn e ≤ s.csd.drawn e
  budget : t.tbs.core.budget = s.tbs.core.budget
  verified : ∀ b k due, t.vfu.activity = .verifying b k due → ∃ k' due', s.vfu.activity = .verifying b k' due'

theorem CoilEased.trans {s t u : State} (h : CoilEased s t) (g : CoilEased t u) : CoilEased s u where
  flights e m := h.flights e (g.flights e m)
  drivers e m := h.drivers e (g.drivers e m)
  drawn e := (g.drawn e).trans (h.drawn e)
  budget := g.budget.trans h.budget
  verified b k due m := by
    obtain ⟨k', due', m'⟩ := g.verified b k due m
    exact h.verified b k' due' m'

/-- Where the pulses and the budget stand, only a verify that begins could add to the coil load. -/
theorem CoilEased.ofPulsesSame {s t : State} (pulses : t.csd.pulses = s.csd.pulses)
    (budget : t.tbs.core.budget = s.tbs.core.budget)
    (verified : ∀ b k due, t.vfu.activity = .verifying b k due → ∃ k' due', s.vfu.activity = .verifying b k' due') :
    CoilEased s t where
  flights e m := by rwa [Csd.inTransit, pulses] at m
  drivers e m := by rwa [Csd.isDriving, pulses] at m
  drawn e := by rw [Csd.drawn, Csd.drawn, pulses]
  budget := budget
  verified := verified

/-- Where the pulses, the budget and the Verify Unit's activity stand, so does the coil load. -/
theorem CoilEased.ofSame {s t : State} (pulses : t.csd.pulses = s.csd.pulses)
    (budget : t.tbs.core.budget = s.tbs.core.budget) (activity : t.vfu.activity = s.vfu.activity) : CoilEased s t :=
  .ofPulsesSame pulses budget fun _ k due m => ⟨k, due, activity ▸ m⟩

theorem CoilEased.refl (s : State) : CoilEased s s := .ofSame rfl rfl rfl

/-- No pulse is added where each element's pulse stands, is gone, or has ended. -/
theorem CoilEased.ofPulses {s t : State} (budget : t.tbs.core.budget = s.tbs.core.budget)
    (activity : t.vfu.activity = s.vfu.activity)
    (pulses : ∀ e : Elem, t.csd.pulses[e] = s.csd.pulses[e] ∨ t.csd.pulses[e] = none ∨
      ∃ p q, s.csd.pulses[e] = some p ∧ t.csd.pulses[e] = some q ∧ q.phase = .settleTime) : CoilEased s t where
  flights e := by
    unfold Csd.inTransit
    obtain same | gone | ⟨p, q, before, after, -⟩ := pulses e <;> simp [*]
  drivers e := by
    unfold Csd.isDriving
    obtain same | gone | ⟨p, q, before, after, phase⟩ := pulses e <;> simp [*]
  drawn e := by
    unfold Csd.drawn
    obtain same | gone | ⟨p, q, before, after, phase⟩ := pulses e <;> simp [*]
  budget := budget
  verified b k due m := ⟨k, due, activity ▸ m⟩

theorem CoilEased.charged_le {s t : State} (h : CoilEased s t) : t.csd.charged ≤ s.csd.charged :=
  List.sum_le_sum fun e _ => h.drawn e

theorem CoilEased.safe {s t : State} (h : CoilEased s t) (c : CoilSafe s) : CoilSafe t where
  budget := by rw [h.budget]; exact h.charged_le.trans c.budget
  drivers b e f be bf de df := c.drivers b e f be bf (h.drivers e de) (h.drivers f df)
  verified b k due m e be := by
    obtain ⟨k', due', m'⟩ := h.verified b k due m
    by_contra flies
    have := c.verified b k' due' m' e be
    rw [h.flights e (by simpa using flies)] at this
    cases this

/-! ## The Verify Unit's activity stands -/

@[simp] theorem startSlot_activity (s : State) : (startSlot s).vfu.activity = s.vfu.activity := rfl

@[simp] theorem startIdleLead_activity (s : State) : (startIdleLead s).vfu.activity = s.vfu.activity := by
  unfold startIdleLead
  split <;> rfl

@[simp] theorem stopIdleLead_activity (s : State) : (stopIdleLead s).vfu.activity = s.vfu.activity := rfl

@[simp] theorem stopVerifyTimers_activity (s : State) : (stopVerifyTimers s).vfu.activity = s.vfu.activity := rfl

@[simp] theorem enterIdle_activity (s : State) : (enterIdle s).vfu.activity = s.vfu.activity := by
  obtain ⟨l, m, h⟩ := enterIdle_eq s
  rw [h]

theorem offerReport_activity {s t : State} (h : offerReport s = some t) : t.vfu.activity = s.vfu.activity := by
  unfold offerReport at h
  split at h <;> cases h
  simp

@[simp] theorem buildReport_activity (entries : List RouteEntry) (s : State) :
    (buildReport entries s).vfu.activity = s.vfu.activity := by
  by_cases reports : ∃ i o, s.ste.ident = some i ∧ s.ste.outcome = some o ∧ o ≠ .noPath
  · obtain ⟨i, o, ident, outcome, reports⟩ := reports
    by_cases room : s.ste.st = .reportWait ∧ s.rtq.report = none
    · simp [buildReport_placed entries ident outcome reports room.1 room.2]
    · simp [buildReport_pending entries ident outcome reports (not_and_or.mp room), State.withReport]
  · unfold buildReport
    split
    · rfl
    · next i o other ident outcome => exact absurd ⟨i, o, ident, outcome, other⟩ reports
    · rfl

@[simp] theorem requestRoutes_activity (s : State) : (requestRoutes s).vfu.activity = s.vfu.activity := by
  unfold requestRoutes
  split
  · split <;> simp
  · rfl

@[simp] theorem finishStep_activity (o : StepOutcome) (s : State) : (finishStep o s).vfu.activity = s.vfu.activity := by
  unfold finishStep
  split
  · simp
  · split
    · simp
    · dsimp only
      split <;> simp

@[simp] theorem endStep_activity (o : StepOutcome) (s : State) : (endStep o s).vfu.activity = s.vfu.activity := by
  rw [endStep_eq]
  simp

@[simp] theorem take_activity (x : FwdEntry) (s : State) : (take x s).vfu.activity = s.vfu.activity := by
  unfold take
  split
  · simp [takeNoPath]
  · simp [takeRecord]

/-! ## The Step Engine -/

theorem handIn_eased (d : Drive) (x : Targets) (s : State) : CoilEased s (handIn d x s) :=
  .ofSame (by simp [handIn]) (by simp) (by simp)

theorem cancelPending_eased (s : State) : CoilEased s (cancelPending s) := .ofSame rfl rfl rfl

theorem discardLatch_eased (s : State) : CoilEased s (discardLatch s) := .ofSame rfl rfl rfl

theorem signal_eased (f : Flag) (s : State) : CoilEased s (signal f s) := .ofSame (by simp) (by simp) (by simp)

theorem hotEvent_eased (s : State) : CoilEased s (hotEvent s) := .ofSame (by simp) (by simp) (by simp)

theorem setMode_eased (m : Mode) (s : State) : CoilEased s (setMode m s) := .ofSame (by simp) (by simp) (by simp)

theorem answer_eased (x : Result) (s : State) : CoilEased s (answer x s) := .ofSame (by simp) (by simp) (by simp)

theorem endStep_eased (o : StepOutcome) (s : State) : CoilEased s (endStep o s) := .ofSame (by simp) (by simp) (by simp)

theorem take_eased (x : FwdEntry) (s : State) : CoilEased s (take x s) := .ofSame (by simp) (by simp) (by simp)

theorem releaseHead_eased (x : FwdEntry) (s : State) : CoilEased s (releaseHead x s) :=
  .ofSame (by simp) (by simp) (by simp)

theorem preemptAndTake_eased (x : FwdEntry) (s : State) : CoilEased s (preemptAndTake x s) := by
  have cancelled : CoilEased s (if s.ste.st = .actuating then cancelPending s else s) := by
    split
    · exact cancelPending_eased s
    · exact .refl s
  exact (cancelled.trans (endStep_eased .preempted _)).trans (take_eased x _)

theorem offerStep_eased {x : FwdEntry} {s t : State} (h : offerStep x s = some t) : CoilEased s t := by
  unfold offerStep at h
  split at h
  · cases h; exact take_eased x s
  · split at h <;> cases h
    exact preemptAndTake_eased x s

theorem releaseUnlessHold_eased (s : State) : CoilEased s (releaseUnlessHold s) := .ofSame (by simp) (by simp) (by simp)

theorem enterActuating_eased (s : State) : CoilEased s (enterActuating s) := by
  have entered : CoilEased s { s with ste.st := .actuating, ste.grace := none } := .ofSame rfl rfl rfl
  unfold enterActuating
  dsimp only
  split
  · exact entered
  · exact entered.trans (handIn_eased _ _ _)

theorem enterSettling_eased (s : State) : CoilEased s (enterSettling s) := by
  have entered : CoilEased s { s with ste.st := .settling } := .ofSame rfl rfl rfl
  unfold enterSettling
  dsimp only
  split
  · exact entered
  · split
    · exact entered.trans (endStep_eased _ _)
    · exact .ofSame rfl rfl rfl

theorem enterMuting_eased (s : State) : CoilEased s (enterMuting s) := by
  have entered : CoilEased s { s with ste.st := .muting } := .ofSame rfl rfl rfl
  unfold enterMuting
  dsimp only
  split
  · exact entered.trans (enterActuating_eased _)
  · split
    · exact entered.trans (endStep_eased _ _)
    · exact .ofSame rfl rfl rfl

theorem takeVerdict_eased (v : Verdict) (s : State) : CoilEased s (takeVerdict v s) := by
  have evaluated : CoilEased s s.evaluated := .ofSame rfl rfl rfl
  have released := evaluated.trans (releaseUnlessHold_eased s.evaluated)
  obtain ⟨o, h⟩ | h | h | h := takeVerdict_cases v s <;> rw [h]
  · exact evaluated.trans (endStep_eased o _)
  · exact released.trans (enterActuating_eased _)
  · exact released.trans (enterSettling_eased _)
  · exact released.trans (enterMuting_eased _)

theorem landForEngine_eased (e : Elem) (d : Drive) (s : State) : CoilEased s (landForEngine e d s) := by
  by_cases actuating : s.ste.st = .actuating
  · have counted : CoilEased s { s with ste.landed := s.ste.landedAfter e d } := .ofSame rfl rfl rfl
    rw [landForEngine_eq actuating]
    split
    · exact counted.trans (enterSettling_eased _)
    · exact counted
  · simpa [landForEngine, actuating] using CoilEased.refl s

theorem supplyLowForEngine_eased (s : State) : CoilEased s (supplyLowForEngine s) := by
  unfold supplyLowForEngine
  split
  · exact endStep_eased _ s
  · exact endStep_eased _ s
  · exact .refl s

theorem handSignals_eased (rf door : Bool) (s : State) : CoilEased s (handSignals rf door s) := by
  have handed : CoilEased s (handRf rf s) := by
    obtain h | ⟨-, h⟩ | h := handRf_cases rf s <;> rw [h]
    · exact .refl s
    · exact enterActuating_eased s
    · exact hotEvent_eased s
  refine handed.trans ?_
  unfold handSignals handDoor
  split
  · exact signal_eased .door _
  · exact .refl _

/-! ## Pulses -/

theorem endPulse_eased {s : State} {e : Elem} {p : Pulse} (pulse : s.csd.pulses[e] = some p) :
    CoilEased s (endPulse e p s) := by
  refine .ofPulses rfl rfl fun j => ?_
  by_cases same : e = j
  · subst same
    exact .inr (.inr ⟨p, { p with phase := .settleTime }, pulse, by simp [endPulse], rfl⟩)
  · have apart : e.val ≠ j.val := fun h => same (Fin.ext h)
    exact .inl (by simp [endPulse, Vector.getElem_set_ne, apart])

theorem landPulse_eased (e : Elem) (p : Pulse) (s : State) : CoilEased s (landPulse e p s) := by
  refine .ofPulses rfl rfl fun j => ?_
  by_cases same : e = j
  · subst same
    exact .inr (.inl (by simp [landPulse]))
  · have apart : e.val ≠ j.val := fun h => same (Fin.ext h)
    exact .inl (by simp [landPulse, Vector.getElem_set_ne, apart])

theorem landForDrive_eased (e : Elem) (d : Drive) (s : State) : CoilEased s (landForDrive e d s) := by
  obtain ⟨-, pulses, -⟩ := landForDrive_csd e d s
  refine .ofSame pulses ?_ ?_ <;> cases d <;> simp only [landForDrive, landSafe, landRecovery_frame]
  unfold landRecovery completeRecovery
  split
  · split <;> rfl
  · rfl

theorem cutPulse_eased (s : State) (e : Elem) : CoilEased s (cutPulse s e) := by
  unfold cutPulse
  split
  · exact .refl s
  · refine .ofPulses rfl rfl fun j => ?_
    by_cases same : e = j
    · subst same
      exact .inr (.inl (by simp))
    · have apart : e.val ≠ j.val := fun h => same (Fin.ext h)
      exact .inl (by simp [Vector.getElem_set_ne, apart])

theorem foldCut_eased (l : List Elem) (s : State) : CoilEased s (l.foldl cutPulse s) := by
  induction l generalizing s with
  | nil => exact .refl s
  | cons e l ih => exact (cutPulse_eased s e).trans (ih _)

theorem cutSupply_eased (s : State) : CoilEased s (cutSupply s) := by
  have low : CoilEased s { s with csd.supply := .low } := .ofSame rfl rfl rfl
  have cut := low.trans (foldCut_eased allElems { s with csd.supply := .low })
  unfold cutSupply
  dsimp only
  generalize allElems.foldl cutPulse { s with csd.supply := .low } = u at cut
  exact cut.trans (.ofSame rfl rfl rfl)

/-! ## The Verify Unit -/

theorem releaseClaim_eased (k : VerifyKind) (s : State) : CoilEased s (releaseClaim k s) := by
  unfold releaseClaim
  split
  · split
    · exact .ofPulsesSame rfl rfl (by simp)
    · exact .refl s
  · exact .refl s

theorem orphanVerify_eased (k : VerifyKind) (s : State) : CoilEased s (orphanVerify k s) := by
  unfold orphanVerify
  split
  · next b x due verifying =>
    split
    · exact .ofPulsesSame rfl rfl fun _ _ _ h => by cases h; exact ⟨x, due, verifying⟩
    · exact .refl s
  · exact .refl s

theorem withdrawRecovery_eased (s : State) : CoilEased s (withdrawRecovery s) := by
  have emptied : CoilEased s { s with vfu.requests := [] } := .ofSame rfl rfl rfl
  exact (emptied.trans (releaseClaim_eased .recovery _)).trans (orphanVerify_eased .recovery _)

theorem withdrawSequence_eased (s : State) : CoilEased s (withdrawSequence s) := by
  unfold withdrawSequence
  split
  · have emptied : CoilEased s { s with vfu.inHand := none } := .ofSame rfl rfl rfl
    exact (emptied.trans (releaseClaim_eased .command _)).trans (orphanVerify_eased .command _)
  · exact .refl s

theorem completeReading_eased (b : Bank) (contacts : List (BitVec 7)) (s : State) :
    CoilEased s (completeReading b contacts s) :=
  .ofPulsesSame (by simp [completeReading]) (by simp) (by simp [completeReading])

/-! ## The Mode Controller -/

theorem abandonForSafe_eased (s : State) : CoilEased s (abandonForSafe s) := by
  unfold abandonForSafe
  split
  · exact endStep_eased _ s
  · exact .refl s

theorem verifyAtSafe_eased (fromEntry : Bool) (s : State) : CoilEased s (verifyAtSafe fromEntry s) := by
  refine (withdrawRecovery_eased s).trans ?_
  unfold verifyAtSafe
  dsimp only
  split
  · split <;> exact .ofSame (by simp) (by simp) (by simp)
  · exact .refl _

theorem formSafeDrive_eased (s : State) : CoilEased s (formSafeDrive s) := by
  obtain ⟨x, d, o, h⟩ := formSafeDrive_eq s
  rw [h]
  exact .ofSame rfl rfl rfl

theorem enterSafeMode_eased (s : State) : CoilEased s (enterSafeMode s) := by
  have moded : CoilEased s (setMode (.safe .driving) { s with mdc.redrive := false }) :=
    .ofSame (by simp) (by simp) (by simp)
  have coil := ((moded.trans (abandonForSafe_eased _)).trans (cancelPending_eased _)).trans (discardLatch_eased _)
  exact ((coil.trans (verifyAtSafe_eased _ _)).trans (signal_eased .safeEntered _)).trans (formSafeDrive_eased _)

theorem redriveSafe_eased (s : State) : CoilEased s (redriveSafe s) := by
  have cleared : CoilEased s { s with mdc.redrive := false } := .ofSame rfl rfl rfl
  have formed := cleared.trans (formSafeDrive_eased _)
  unfold redriveSafe
  dsimp only
  split
  · exact formed
  · exact formed.trans (setMode_eased _ _)

theorem enterEntry_eased (o : EntryOrigin) (r : EntryRequest) (s : State) : CoilEased s (enterEntry o r s) := by
  have moded : CoilEased s (stopVerifyTimers
      (setMode (.entry o r) { s with mdc.outstanding := Targets.none, mdc.redrive := false })) :=
    .ofSame (by simp) (by simp) (by simp)
  exact (moded.trans (releaseClaim_eased .debtForced _)).trans (.ofSame rfl rfl rfl)

theorem enterRunMode_eased (s : State) : CoilEased s (enterRunMode s) := by
  have moded : CoilEased s (startSlot { answer (.ack []) (setMode .run s) with
      ste := { (answer (.ack []) (setMode .run s)).ste with settledMark := false } }) :=
    .ofSame (by simp) (by simp) (by simp)
  refine moded.trans ?_
  unfold enterRunMode
  dsimp only
  split
  · exact .ofSame (by simp) (by simp) (by simp)
  · exact .refl _

theorem returnToConfig_eased (s : State) : CoilEased s (returnToConfig s) := by
  have moded : CoilEased s (stopVerifyTimers (setMode .config s)) := .ofSame (by simp) (by simp) (by simp)
  exact moded.trans (releaseClaim_eased .debtForced _)

theorem failEntry_eased (o : EntryOrigin) (s : State) : CoilEased s (failEntry o s) := by
  have answered := (withdrawSequence_eased s).trans (answer_eased (.nak .verifyFailed) _)
  cases o with
  | config => exact answered.trans (returnToConfig_eased _)
  | safe => exact answered.trans (enterSafeMode_eased _)

theorem tripEntry_eased (s : State) : CoilEased s (tripEntry s) :=
  ((withdrawSequence_eased s).trans (answer_eased (.nak .state) _)).trans (enterSafeMode_eased _)

theorem takeMismatch_eased (s : State) : CoilEased s (takeMismatch s) := by
  unfold takeMismatch
  split
  · exact failEntry_eased _ s
  · next sub _ =>
    cases sub with
    | driving => exact .ofSame rfl rfl rfl
    | held => exact redriveSafe_eased s
  · exact .refl s
  · exact .refl s

theorem tripBy_eased (c : TripCause) (s : State) : CoilEased s (tripBy c s) := by
  unfold tripBy
  split
  · exact enterSafeMode_eased s
  · cases c with
    | mismatch b => exact failEntry_eased _ s
    | vcoilLow => exact tripEntry_eased s
    | door => exact tripEntry_eased s
    | safeAll => exact tripEntry_eased s
  · exact .refl s
  · exact .refl s

theorem takeTrip_eased (s : State) : CoilEased s (takeTrip s) := by
  unfold takeTrip
  split
  · exact .refl s
  · next c rest _ =>
    have taken : CoilEased s { s with mdc.trips := rest } := .ofSame rfl rfl rfl
    exact taken.trans (tripBy_eased c _)

theorem enterConfigMode_eased (s : State) : CoilEased s (enterConfigMode s) := by
  have moded : CoilEased s (stopVerifyTimers
      (setMode .config { s with mdc.outstanding := Targets.none, mdc.redrive := false })) :=
    .ofSame (by simp) (by simp) (by simp)
  have withdrawn := (moded.trans (releaseClaim_eased .debtForced _)).trans (withdrawRecovery_eased _)
  have ended : ∀ x, CoilEased x (endRecovery x) := by
    intro x
    unfold endRecovery
    split
    · exact (cancelPending_eased x).trans (discardLatch_eased _)
    · exact discardLatch_eased x
  unfold enterConfigMode
  dsimp only
  split
  · exact withdrawn.trans (ended _)
  · exact withdrawn

theorem formRecovery_eased (s : State) : CoilEased s (formRecovery s) := by
  unfold formRecovery
  split
  · have marked : CoilEased s { s with
        csd.recoveryActive := true
        csd.latch := s.csd.latch.map (fun x => if x.state = .owed then { x with state := .driving } else x) } :=
      .ofSame rfl rfl rfl
    exact marked.trans (handIn_eased _ _ _)
  · exact .refl s

theorem returnSupply_eased (s : State) : CoilEased s (returnSupply s) := by
  have good : CoilEased s { s with csd.supply := .good, csd.passDue := true } := .ofSame rfl rfl rfl
  refine good.trans ?_
  unfold returnSupply
  dsimp only
  split
  · exact formRecovery_eased _
  · exact (discardLatch_eased _).trans (redriveSafe_eased _)
  · exact discardLatch_eased _
  · exact discardLatch_eased _

end Sys2Proof.Machine
end

section
/-! PROOF. The coils stay safe (R75; O58), and the invariants hold right after reset (O60): a launch makes room for itself by its
eligibility, a verify starts in an idle bank, LOAD CORE keeps the budget above the drawn current, and nothing else adds to the load. -/

namespace Sys2Proof.Machine

/-! ## Launches (R69, R72) -/

theorem charged_eq_sum (c : Csd) : c.charged = ∑ e : Elem, c.drawn e := by
  simp [Csd.charged, allElems, Fin.sum_univ_def]

/-- A pulse added to an element at rest draws its current beside the others'. -/
theorem charged_launch {c d : Csd} {e : Elem} {p : Pulse} (rest : c.pulses[e] = none) (phase : p.phase = .driving)
    (pulses : d.pulses = c.pulses.set e (some p)) : d.charged = c.charged + p.current := by
  have own : c.drawn e = 0 := by simp [Csd.drawn, rest]
  have drawn : d.drawn = Function.update c.drawn e p.current := by
    funext j
    by_cases same : j = e
    · subst same
      simp [Csd.drawn, pulses, phase]
    · have apart : e.val ≠ j.val := fun h => same (Fin.ext h.symm)
      simp [Csd.drawn, pulses, same, Vector.getElem_set_ne, apart]
  have sum : ∑ j, d.drawn j = ∑ j, c.drawn j + p.current := by
    rw [drawn, Finset.sum_update_of_mem (Finset.mem_univ e), Finset.sdiff_singleton_eq_erase,
      ← Finset.add_sum_erase _ _ (Finset.mem_univ e), own]
    omega
  rwa [charged_eq_sum, charged_eq_sum]

/-- What eligibility asks (R72). -/
theorem eligible_iff {s : State} {e : Elem} {c : ClassRec} : eligible s e c = true ↔
    s.csd.charged + c.current ≤ s.tbs.core.budget ∧ s.csd.bankDriving (bankOf e) = false ∧
      s.csd.recovered (bankOf e) s.now = true ∧ lockoutPassed s e c = true ∧ s.csd.inTransit e = false ∧
      s.vfu.activity.freeOf (bankOf e) = true ∧ s.csd.supply = .good := by
  simp [eligible, and_assoc]

theorem bankDriving_eq_false_iff {c : Csd} {b : Bank} :
    c.bankDriving b = false ↔ ∀ e, bankOf e = b → c.isDriving e = false := by
  simp [Csd.bankDriving, elemsOf, allElems]

/-- The pulses that a launch leaves. -/
theorem launch_pulses (d : Drive) (e : Elem) (c : ClassRec) (q : Pos) (s : State) :
    (launch d e c q s).csd.pulses = s.csd.pulses.set e (some (newPulse s d e c q)) := by
  unfold launch countLaunch
  dsimp only
  split <;> split <;> simp

theorem launch_passes {d : Drive} {e : Elem} {c : ClassRec} {q : Pos} {s : State} (pending : s.csd.pending[e] = some q)
    (may : eligible s e c = true) : Passed s (launch d e c q s) :=
  launch_passed d e c q s pending (eligible_rest may).1 (eligible_rest may).2

theorem launch_safe {d : Drive} {e : Elem} {c : ClassRec} {q : Pos} {s : State} (pending : s.csd.pending[e] = some q)
    (may : eligible s e c = true) (safe : CoilSafe s) : CoilSafe (launch d e c q s) := by
  have passed := launch_passes (d := d) pending may
  have pulses := launch_pulses d e c q s
  obtain ⟨fits, alone, -, -, rest, unclaimed, -⟩ := eligible_iff.mp may
  have rest : s.csd.pulses[e] = none := by simpa [Csd.inTransit] using rest
  have others : ∀ j : Elem, j ≠ e → (launch d e c q s).csd.pulses[j] = s.csd.pulses[j] := by
    intro j other
    have apart : e.val ≠ j.val := fun h => other (Fin.ext h.symm)
    simp [pulses, Vector.getElem_set_ne, apart]
  constructor
  case budget =>
    rw [charged_launch rest rfl pulses, passed.tables]
    exact fits
  case drivers =>
    intro b f g bf bg df dg
    have only : ∀ j, bankOf j = b → (launch d e c q s).csd.isDriving j = true → j ≠ e →
        s.csd.isDriving j = true := by
      intro j _ dj other
      rwa [Csd.isDriving, others j other] at dj
    have none_of : bankOf e = b → ∀ j, bankOf j = b → (launch d e c q s).csd.isDriving j = true → j = e := by
      intro be j bj dj
      by_contra other
      have driving := only j bj dj other
      rw [bankDriving_eq_false_iff.mp alone j (bj.trans be.symm)] at driving
      cases driving
    by_cases be : bankOf e = b
    · rw [none_of be f bf df, none_of be g bg dg]
    · have away : ∀ j, bankOf j = b → j ≠ e := fun j bj h => be (h ▸ bj)
      exact safe.drivers b f g bf bg (only f bf df (away f bf)) (only g bg dg (away g bg))
  case verified =>
    intro b k due verifying j bj
    rw [passed.vfu] at verifying
    have away : j ≠ e := by
      rintro rfl
      simp [Activity.freeOf, verifying, bj] at unclaimed
    have before := safe.verified b k due verifying j bj
    rwa [Csd.inTransit, others j away]

theorem considerLaunch_safe (d : Drive) {s : State} (e : Elem) (safe : CoilSafe s) : CoilSafe (considerLaunch d s e) := by
  unfold considerLaunch
  split
  · next q c pending _ =>
    split
    · next may => exact launch_safe pending may safe
    · exact safe
  · exact safe

theorem foldLaunch_safe (d : Drive) (l : List Elem) {s : State} (safe : CoilSafe s) :
    CoilSafe (l.foldl (considerLaunch d) s) := by
  induction l generalizing s with
  | nil => exact safe
  | cons e l ih => exact ih (considerLaunch_safe d e safe)

theorem launchPass_safe {s : State} (safe : CoilSafe s) : CoilSafe (launchPass s) := by
  have forgotten : CoilEased s { s with csd.passDue := false } := .ofSame rfl rfl rfl
  unfold launchPass
  dsimp only
  split
  · exact forgotten.safe safe
  · next d _ =>
    have launched := foldLaunch_safe d allElems (forgotten.safe safe)
    generalize allElems.foldl (considerLaunch d) { s with csd.passDue := false } = u at launched
    unfold settleDrive
    split
    · have emptied : CoilEased u { u with csd.drive := none } := .ofSame rfl rfl rfl
      exact emptied.safe launched
    · exact launched

/-! ## Starts of verifies (R89, R92) -/

theorem startVerify_safe (k : VerifyKind) {b : Bank} {s : State} (idle : s.csd.bankIdle b s.now = true)
    (safe : CoilSafe s) : CoilSafe (startVerify k b s) where
  budget := safe.budget
  drivers := safe.drivers
  verified := by
    rintro x k' due h e rfl
    cases h
    simp only [Csd.bankIdle, elemsOf, allElems, Bool.and_eq_true, Bool.not_eq_true', List.any_eq_false, List.mem_filter,
      List.mem_finRange, true_and, beq_iff_eq, Bool.not_eq_true] at idle
    exact idle.1 e rfl

theorem takeBank_safe (k : VerifyKind) (b : Bank) {s : State} (safe : CoilSafe s) : CoilSafe (takeBank k b s) := by
  unfold takeBank
  split
  · next idle => exact startVerify_safe k idle safe
  · exact { safe with verified := fun _ _ _ claimed => by cases claimed }

theorem verifyAction_safe {s t : State} (h : verifyAction s = some t) (safe : CoilSafe s) : CoilSafe t := by
  unfold verifyAction at h
  split at h
  · obtain ⟨x, -, rfl⟩ := Option.map_eq_some_iff.mp h
    exact takeBank_safe _ _ safe
  · split at h
    · next idle =>
      cases h
      exact startVerify_safe _ idle safe
    · cases h
  · cases h

theorem chose_eased (s : State) : CoilEased s s.chose := .ofSame rfl rfl rfl

theorem makePass_safe {s t : State} (h : makePass s = some t) (safe : CoilSafe s) : CoilSafe t := by
  unfold makePass at h
  split at h
  · split at h
    · cases h
      exact launchPass_safe safe
    · next v hv =>
      split at h
      · split at h <;> cases h
        · exact (chose_eased v).safe (verifyAction_safe hv safe)
        · exact launchPass_safe ((chose_eased s).safe safe)
      · cases h
        exact launchPass_safe safe
  · cases h

/-! ## Requests (R151 to R165) -/

/-- A store with no check but that of its fields. -/
theorem plainStore_ok_iff {α : Type} {d : Except FieldFault α} {effect : α → State} {t : State} :
    (do
      let x ← fieldNak d
      return effect x : Except Nak State) = .ok t ↔ ∃ x, d = .ok x ∧ t = effect x := by
  cases d <;> simp [fieldNak, bind, Except.bind, pure, Except.pure, eq_comm]

/-- LOAD CORE keeps the budget above the current drawn (R157). -/
theorem storeCore_safe {r : List Byte} {s t : State} (h : storeCore r s = .ok t) (safe : CoilSafe s) : CoilSafe t := by
  unfold storeCore at h
  cases d : decodeCore r with
  | error f => simp [d, fieldNak, bind, Except.bind] at h
  | ok x =>
    simp only [d, fieldNak, bind, Except.bind, pure, Except.pure, throw, throwThe, MonadExceptOf.throw] at h
    split at h <;> cases h
    next fits => exact { safe with budget := Nat.not_lt.mp fits }

/-- A LOAD of any other table moves no pulse, leaves the budget and starts no verify. -/
theorem storeRecord_eased {t : TableId} {i : Nat} {r : List Byte} {s u : State} (other : t ≠ .core)
    (h : storeRecord t i r s = .ok u) : CoilEased s u := by
  cases t with
  | cls =>
    obtain ⟨x, -, -, rfl⟩ := storeClass_ok_iff.mp h
    exact .ofSame rfl rfl rfl
  | element =>
    obtain ⟨x, -, -, rfl⟩ := storeElement_ok_iff.mp h
    exact .ofSame rfl rfl rfl
  | core => exact absurd rfl other
  | aux =>
    obtain ⟨x, -, rfl⟩ := plainStore_ok_iff.mp h
    have stored : CoilEased s { s with axu.records := s.axu.records.set (Fin.ofNat 4 i) x } := .ofSame rfl rfl rfl
    exact stored.trans (handSignals_eased _ _ _)
  | link | interlock | eloss | tcorr | grid | runtime | wear | path =>
    obtain ⟨x, -, rfl⟩ := plainStore_ok_iff.mp h
    exact .ofSame rfl rfl rfl
  | position | status | route => cases h

theorem serveLoad_safe (t : TableId) (i : Nat) (r : List Byte) {s : State} (safe : CoilSafe s) :
    CoilSafe (serveLoad t i r s) := by
  unfold serveLoad
  split
  · next u h =>
    refine (answer_eased _ u).safe ?_
    unfold loadRecord at h
    split at h
    · cases h
    · split at h
      · cases h
      · split at h
        · cases h
        · by_cases core : t = .core
          · subst core
            exact storeCore_safe h safe
          · exact (storeRecord_eased core h).safe safe
  · exact (answer_eased _ s).safe safe

theorem serveFetch_eased (t : TableId) (i : Nat) (s : State) : CoilEased s (serveFetch t i s) := by
  unfold serveFetch
  dsimp only
  split
  · split
    · exact (chose_eased s).trans (answer_eased _ _)
    · exact answer_eased _ s
  · exact answer_eased _ s

theorem serveSoftReset_eased (s : State) : CoilEased s (serveSoftReset s) := by
  have engine : CoilEased s (resetCoil (resetEngine (resetMode s))) :=
    .ofSame (by simp [resetCoil, discardLatch, cancelPending]) (by simp [resetCoil]) (by simp [resetCoil])
  have verify : ∀ x, CoilEased x (resetVerify x) := by
    refine fun x => .ofPulsesSame rfl rfl fun b k due h => ?_
    simp only [resetVerify] at h
    cases activity : x.vfu.activity <;> rw [activity] at h <;> cases h
    exact ⟨_, _, rfl⟩
  have answered : ∀ x, CoilEased x (answerReset (flushChain (resetEvents x))) :=
    fun x => .ofSame (by simp [resetEvents]) (by simp [resetEvents]) (by simp [resetEvents])
  exact (engine.trans (verify _)).trans (answered _)

theorem serveCommand_eased (c : Command) (arg : List Byte) (s : State) : CoilEased s (serveCommand c arg s) := by
  cases c <;> dsimp only [serveCommand]
  case enterRun =>
    unfold serveEnterRun
    split
    · exact answer_eased _ s
    · exact .ofSame rfl rfl rfl
  case enterConfig =>
    unfold serveEnterConfig
    split
    · exact (enterConfigMode_eased s).trans (answer_eased _ _)
    · exact answer_eased _ s
  case enterSafe =>
    unfold serveEnterSafe
    split
    · exact (enterSafeMode_eased s).trans (answer_eased _ _)
    · exact answer_eased _ s
    · exact answer_eased _ s
    · exact answer_eased _ s
  case resume =>
    unfold serveResume
    split
    · exact answer_eased _ s
    · exact enterEntry_eased _ _ s
  case verifyAll => exact .ofSame rfl rfl rfl
  case verifyBank =>
    unfold serveVerifyBank
    split
    · split
      · exact answer_eased _ s
      · split
        · exact answer_eased _ s
        · exact .ofSame rfl rfl rfl
    · exact answer_eased _ s
  case readClearEvents =>
    have cleared : CoilEased s (clearFlags (BitVec.ofNat 16 (beNat arg)) s) := .ofSame (by simp) (by simp) (by simp)
    exact cleared.trans (answer_eased _ _)
  case clearCounters => exact .ofSame (by simp [serveClearCounters]) (by simp [serveClearCounters]) (by simp [serveClearCounters])
  case setMarker => exact .ofSame (by simp [serveSetMarker]) (by simp [serveSetMarker]) (by simp [serveSetMarker])
  case softReset => exact serveSoftReset_eased s

theorem handRequest_safe (f : Frame) {s : State} (safe : CoilSafe s) : CoilSafe (handRequest f s) := by
  have handed : CoilEased s { s with mga := .serving { tag := f.tag, payload := f.payload } } := .ofSame rfl rfl rfl
  unfold handRequest
  dsimp only
  split
  · next d _ =>
    cases d with
    | load t i r => exact serveLoad_safe t i r (handed.safe safe)
    | fetch t i => exact (handed.trans (serveFetch_eased t i _)).safe safe
    | command c arg => exact (handed.trans (serveCommand_eased c arg _)).safe safe
  · exact (handed.trans (answer_eased _ _)).safe safe

/-! ## The head of the Forward Queue (R139, R140) -/

theorem dealAtChainEnd_eased {s t : State} (h : dealAtChainEnd s = some t) : CoilEased s t :=
  .ofSame (by simp [dealAtChainEnd_frame s h]) (by simp [dealAtChainEnd_frame s h]) (by simp [dealAtChainEnd_frame s h])

theorem startTxB_eased {s t : State} (h : startTxB s = some t) : CoilEased s t :=
  .ofSame (by simp [startTxB_frame s h]) (by simp [startTxB_frame s h]) (by simp [startTxB_frame s h])

theorem handBroadcast_safe (x : FwdEntry) {s : State} (safe : CoilSafe s) : CoilSafe (handBroadcast x s) := by
  have released : CoilEased s (setHead { x with status := .released } s) := .ofSame rfl rfl rfl
  have begun : CoilEased s (beginCopy x.frame (setHead { x with status := .released } s)) := by
    obtain h | h | ⟨t, ht, h⟩ := beginCopy_cases x.frame (setHead { x with status := .released } s) <;> rw [h]
    · exact released
    · exact released.trans (chose_eased _)
    · exact (released.trans (startTxB_eased ht)).trans (chose_eased t)
  have served := handRequest_safe x.frame (begun.safe safe)
  unfold handBroadcast
  dsimp only
  cases h : dealAtChainEnd (handRequest x.frame (beginCopy x.frame (setHead { x with status := .released } s))) with
  | none => exact served
  | some t => exact (dealAtChainEnd_eased h).safe served

theorem treatHead_safe {x : FwdEntry} {s t : State} (h : treatHead x s = some t) (safe : CoilSafe s) : CoilSafe t := by
  have departed : CoilEased s (departFwd s) := .ofSame (by simp) (by simp) (by simp)
  unfold treatHead at h
  split at h
  · split at h
    · cases h
      exact (releaseHead_eased _ s).safe safe
    · exact (offerStep_eased h).safe safe
  · split at h
    · cases h
      exact handRequest_safe _ (departed.safe safe)
    · split at h <;> cases h
      · exact handBroadcast_safe x safe
      · exact (releaseHead_eased _ s).safe safe

theorem examineHead_safe {s t : State} (h : examineHead s = some t) (safe : CoilSafe s) : CoilSafe t := by
  unfold examineHead at h
  split at h
  · split at h
    · exact (dealAtChainEnd_eased h).safe safe
    · cases h
    · exact treatHead_safe h safe
  · cases h

/-! ## The consequences of an event -/

theorem chooseVerify_safe {s t : State} (h : chooseVerify s = some t) (safe : CoilSafe s) : CoilSafe t := by
  unfold chooseVerify at h
  split at h
  · cases h
  · next v hv _ =>
    cases h
    exact verifyAction_safe hv safe
  · next v x hv hx =>
    split at h
    · split at h <;> cases h
      · exact (chose_eased v).safe (verifyAction_safe hv safe)
      · exact (chose_eased x).safe (examineHead_safe hx safe)
    · cases h
      exact verifyAction_safe hv safe

theorem completeSafe_eased {s t : State} (h : completeSafe s = some t) : CoilEased s t := by
  unfold completeSafe at h
  split at h
  · split at h <;> cases h
    · have cleared : CoilEased s { s with mdc.redrive := false } := .ofSame rfl rfl rfl
      exact cleared.trans (formSafeDrive_eased _)
    · exact setMode_eased _ s
  · cases h

theorem react_safe {s t : State} (safe : CoilSafe s) (h : react s = some t) : CoilSafe t := by
  rcases react_cases h with h | h | h | h | h | h | h | h | h | h | h
  · refine CoilEased.safe (s := s) ?_ safe
    exact .ofSame (by simp [restartEvaluation_frame s h]) (by simp [restartEvaluation_frame s h])
      (by simp [restartEvaluation_frame s h])
  · exact makePass_safe h safe
  · exact chooseVerify_safe h safe
  · exact (completeSafe_eased h).safe safe
  · refine CoilEased.safe (s := s) ?_ safe
    exact .ofSame (by simp [endHold_frame s h]) (by simp [endHold_frame s h]) (by simp [endHold_frame s h])
  · refine CoilEased.safe (s := s) ?_ safe
    exact .ofSame (by simp [offerAnswer_frame s h]) (by simp [offerAnswer_frame s h]) (by simp [offerAnswer_frame s h])
  · refine CoilEased.safe (s := s) ?_ safe
    exact .ofSame (by simp [offerReport_frame s h]) (by simp [offerReport_frame s h]) (offerReport_activity h)
  · exact examineHead_safe h safe
  · refine CoilEased.safe (s := s) ?_ safe
    exact .ofSame (by simp [admissionPass_frame s h]) (by simp [admissionPass_frame s h])
      (by simp [admissionPass_frame s h])
  · exact (startTxB_eased h).safe safe
  · refine CoilEased.safe (s := s) ?_ safe
    exact .ofSame (by simp [startTxA_frame s h]) (by simp [startTxA_frame s h]) (by simp [startTxA_frame s h])

theorem settled_safe {s : State} (safe : CoilSafe s) : CoilSafe (settled s) :=
  (settle_keeps (P := CoilSafe) (R := fun _ _ => True) (fun _ => trivial) (fun _ _ _ _ _ => trivial)
    (fun _ _ p h => ⟨react_safe p h, trivial⟩) _ s safe).1

/-- An event whose own effect keeps the coils safe keeps them safe with all its consequences. -/
theorem event_safe {effect : State → State} (keeps : ∀ s, CoilSafe s → CoilSafe (effect s)) {s : State}
    (safe : CoilSafe s) : CoilSafe (event effect s) := by
  have read : CoilEased s (readLevelConditions s) := .ofSame (by simp) (by simp) (by simp)
  have level : CoilSafe (levelRead s) := by
    unfold levelRead
    split
    · exact safe
    · exact settled_safe (read.safe safe)
  unfold event
  split
  · exact safe
  · exact settled_safe (keeps _ level)

/-! ## The events' own effects -/

theorem advance_eased (s : State) (t : Nat) : CoilEased s (s.advance t) := .ofSame rfl rfl rfl

theorem pulseEndEffect_eased (e : Elem) (s : State) : CoilEased s (pulseEndEffect e s) := by
  unfold pulseEndEffect
  split
  · next p pulse =>
    split
    · exact (advance_eased s _).trans (endPulse_eased pulse)
    · exact .refl s
  · exact .refl s

theorem pulseLandEffect_eased (e : Elem) (s : State) : CoilEased s (pulseLandEffect e s) := by
  unfold pulseLandEffect
  split
  · next p _ =>
    split
    · rw [reportLanding_eq]
      exact (((advance_eased s _).trans (landPulse_eased e p _)).trans (landForDrive_eased e _ _)).trans
        (landForEngine_eased e _ _)
    · exact .refl s
  · exact .refl s

theorem recoveryEffect_eased (b : Bank) (s : State) : CoilEased s (recoveryEffect b s) := by
  unfold recoveryEffect
  split
  · exact .ofSame rfl rfl rfl
  · exact .refl s

theorem lockoutEffect_eased (e : Elem) (s : State) : CoilEased s (lockoutEffect e s) := by
  unfold lockoutEffect
  split
  · dsimp only
    split <;> exact .ofSame rfl rfl rfl
  · exact .refl s

theorem supplyLowEffect_eased (time : Nat) (s : State) : CoilEased s (supplyLowEffect time s) := by
  unfold supplyLowEffect
  split
  · exact .refl s
  · exact (((advance_eased s time).trans (cutSupply_eased _)).trans (signal_eased .vcoilLow _)).trans
      (supplyLowForEngine_eased _)

theorem supplyReturnEffect_eased (time : Nat) (s : State) : CoilEased s (supplyReturnEffect time s) := by
  unfold supplyReturnEffect
  split
  · exact .refl s
  · exact (advance_eased s time).trans (returnSupply_eased _)

theorem lineEffect_eased (time : Nat) (line : Fin 4) (level : Bool) (s : State) :
    CoilEased s (lineEffect time line level s) := by
  have sampled : CoilEased s { s.advance time with axu.levels := s.axu.levels.set line level } := .ofSame rfl rfl rfl
  exact sampled.trans (handSignals_eased _ _ _)

theorem requestArrives_eased (h : ReqHead) (payload : List Byte) (s : State) : CoilEased s (requestArrives h payload s) := by
  unfold requestArrives
  split
  · exact .refl s
  · exact .ofSame (by simp) (by simp) (by simp)

theorem validationEffect_eased (time : Nat) (s : State) : CoilEased s (validationEffect time s) := by
  unfold validationEffect
  split
  · exact .refl s
  · have done : CoilEased s { s.advance time with mdc.validating := none } := .ofSame rfl rfl rfl
    dsimp only
    split
    · exact done.trans (answer_eased _ _)
    · exact done.trans (enterEntry_eased _ _ _)

theorem verdictEffect_eased (time : Nat) (s : State) : CoilEased s (verdictEffect time s) := by
  unfold verdictEffect
  split
  · exact (advance_eased s time).trans (takeVerdict_eased _ _)
  · exact .refl s

theorem graceEffect_eased (s : State) : CoilEased s (graceEffect s) := by
  unfold graceEffect
  split
  · exact (advance_eased s _).trans (endStep_eased _ _)
  · exact .refl s

theorem dwellEffect_eased (s : State) : CoilEased s (dwellEffect s) := by
  unfold dwellEffect
  split
  · exact (advance_eased s _).trans (endStep_eased _ _)
  · exact .refl s

theorem routesEffect_eased (time : Nat) (s : State) : CoilEased s (routesEffect time s) := by
  unfold routesEffect
  split
  · exact .ofSame (by simp) (by simp) (by simp)
  · exact .refl s

theorem completeFor_eased (k : VerifyKind) (b : Bank) (mismatched : Bool) (s : State) :
    CoilEased s (completeFor k b mismatched s) := by
  cases k <;> dsimp only [completeFor]
  case command =>
    have handed : ∀ h, CoilEased s { s with vfu.inHand := h } := fun _ => .ofSame rfl rfl rfl
    have ended : CoilEased s (endSequence s) := .ofSame rfl rfl rfl
    unfold completeCommand
    split
    · exact .refl s
    · exact (handed none).trans (answer_eased _ _)
    · split
      · exact handed _
      · exact ended.trans (answer_eased _ _)
    · split
      · exact .refl s
      · split
        · exact handed _
        · exact ended.trans (enterRunMode_eased _)
  case recovery => exact .ofSame rfl rfl rfl
  all_goals exact .refl s

theorem verifyEffect_eased (contacts : List (BitVec 7)) (s : State) : CoilEased s (verifyEffect contacts s) := by
  unfold verifyEffect
  split
  · next b k due _ =>
    have completed := ((advance_eased s due).trans (completeReading_eased b contacts _)).trans
      (completeFor_eased k b (bankMismatched s b contacts) _)
    dsimp only
    split
    · exact (completed.trans (signal_eased (.mismatch b) _)).trans (takeMismatch_eased _)
    · exact completed
  · exact .refl s
  · exact .refl s

theorem slotEffect_eased (s : State) : CoilEased s (slotEffect s) := by
  unfold slotEffect raiseDebt
  split
  · have restarted : ∀ due, CoilEased s (startSlot (s.advance due)) := fun _ => .ofSame rfl rfl rfl
    split
    · exact (restarted _).trans (signal_eased .verifyLate _)
    · exact (restarted _).trans (.ofSame rfl rfl rfl)
  · exact .refl s

theorem idleLeadEffect_eased (s : State) : CoilEased s (idleLeadEffect s) := by
  unfold idleLeadEffect
  split
  · exact .ofSame rfl rfl rfl
  · exact .refl s

/-! ## Every command -/

/-- Nothing is in flight after a reset, and no bank is verified. -/
theorem initial_safe (p : Pins) (now choices : Nat) (pending : List Instr) :
    CoilSafe (State.initial p now choices pending) where
  budget := by
    have drawn : ∀ e, (State.initial p now choices pending).csd.drawn e = 0 := fun e => by simp [Csd.drawn, State.initial]
    simp [charged_eq_sum, drawn]
  drivers b e f _ _ driving _ := by simp [Csd.isDriving, State.initial] at driving
  verified b k due verifying := by simp [State.initial] at verifying

theorem exec_safe {c : Instr} {s t : State} (safe : CoilSafe s) (h : exec c s = .next t) : CoilSafe t := by
  have ran : ∀ {effect : State → State}, (∀ s, CoilEased s (effect s)) →
      Host.Outcome.next (event effect s) = (.next t : Host.Outcome State Fault Refusal) → CoilSafe t := by
    rintro effect eased ⟨⟩
    exact event_safe (fun s => (eased s).safe) safe
  cases c with
  | powerOn time pins => cases h; exact initial_safe _ _ _ _
  | resetN time => cases h; exact { initial_safe s.heldPins (max s.now time) s.choices s.pending with }
  | resetNRelease time pins =>
    have h : (if s.inReset then restart pins time s else s) = t := Host.Outcome.next.inj h
    split at h <;> cases h
    · exact initial_safe _ _ _ _
    · exact safe
  | levelConditionsRead time => exact ran (fun s => advance_eased s time) h
  | linkUp time port => exact ran (fun s => .ofSame (by simp) (by simp) (by simp)) h
  | linkDown time port => exact ran (fun s => .ofSame (by simp) (by simp) (by simp)) h
  | frameReceived time port bytes => exact ran (fun s => .ofSame (by simp) (by simp) (by simp)) h
  | flowMarkReceived time port mark => exact ran (fun s => .ofSame (by simp) (by simp) (by simp)) h
  | transmissionEnd time port => exact ran (fun s => .ofSame (by simp) (by simp) (by simp)) h
  | spanVerdict time => exact ran (verdictEffect_eased time) h
  | graceTimerExpiry => exact ran graceEffect_eased h
  | dwellTimerExpiry => exact ran dwellEffect_eased h
  | routeRequestComplete time => exact ran (routesEffect_eased time) h
  | pulseEnd e => exact ran (pulseEndEffect_eased e) h
  | pulseLand e => exact ran (pulseLandEffect_eased e) h
  | bankRecoveryReached b => exact ran (recoveryEffect_eased b) h
  | lockoutElapsed e => exact ran (lockoutEffect_eased e) h
  | vcoilLow time => exact ran (supplyLowEffect_eased time) h
  | supplyReturn time => exact ran (supplyReturnEffect_eased time) h
  | verifyComplete contacts => exact ran (verifyEffect_eased contacts) h
  | slotTimerExpiry => exact ran slotEffect_eased h
  | idleLeadExpiry => exact ran idleLeadEffect_eased h
  | validationComplete time => exact ran (validationEffect_eased time) h
  | trip time => exact ran (fun s => (advance_eased s time).trans (takeTrip_eased _)) h
  | presentedSignalChange time line level => exact ran (lineEffect_eased time line level) h
  | load | fetch | enterRun | resume | enterConfig | enterSafe | verifyAll | verifyBank | readClearEvents | clearCounters
    | setMarker | softReset => exact ran (requestArrives_eased _ _) h

/-- Settles O58: the reset state has nothing in flight, and every command keeps the coils safe. -/
theorem coilSafetyIsKept : Obligations.CoilSafetyIsKept := by
  refine ⟨initial_safe _ _ _ _, fun s t safe h => ?_⟩
  unfold step at h
  split at h
  · cases h
    exact safe
  · next c rest _ =>
    have taken : CoilEased s { s with pending := rest } := .ofSame rfl rfl rfl
    exact exec_safe (taken.safe safe) h

/-- Settles O60: each invariant by the reset values it speaks of. -/
theorem resetIsSafe : Obligations.ResetIsSafe where
  coil := initial_safe _ _ _ _
  debt := ⟨by decide, by decide⟩
  queues := ⟨by decide, by decide⟩
  counters := ⟨by decide, by decide, by decide, by decide, by decide, by decide, by decide⟩
  wear e := by simp [State.reset, State.initial]
  grid g present := by simp [State.reset, State.initial] at present
  links i l present := by simp [State.reset, State.initial] at present
  unfitted e absent := by simp [State.reset, State.initial] at absent
  marks := ⟨by decide, by decide, by decide, by decide⟩

end Sys2Proof.Machine
end

section
/-! PROOF. RESET_N asserted stops the part and puts every block at its reset values (R68, R93, R107, R134, R150, R167, R178, R179; O4). -/

namespace Sys2Proof.Machine

/-- The initial state has every block at its reset values, whatever its pins, instant, choices and waiting commands. -/
theorem initial_atReset (p : Pins) (now choices : Nat) (pending : List Instr) :
    AtReset (State.initial p now choices pending) := by
  constructor <;> simp [State.initial, PortState.initial]

/-- What RESET_N changes of the reset state, the latched set and the reading that is due, are no part of those values. -/
theorem heldInReset_atReset (time : Nat) (s : State) : AtReset (heldInReset time s) :=
  { initial_atReset s.heldPins (max s.now time) s.choices s.pending with
    events := (initial_atReset s.heldPins (max s.now time) s.choices s.pending).events }

/-- While RESET_N is asserted an event has no effect. -/
theorem event_inReset (effect : State → State) {s : State} (held : s.inReset = true) : event effect s = s := by
  simp [event, held]

/-- Settles O4: by the state that RESET_N leaves, and because while it is asserted no other event has an effect. -/
theorem assertedResetStopsThePart : Obligations.AssertedResetStopsThePart := by
  refine ⟨fun time s => ?_, fun c s held noPower noReset noRelease => ?_, fun time p s free => ?_⟩
  · have reset := heldInReset_atReset time s
    refine ⟨heldInReset time s, rfl, rfl, rfl, rfl, reset, fun e => ?_, fun i => ?_⟩
    · simp [State.coilDrive, reset.pulses e]
    · simp only [State.lineDrive, (reset.lines i).1]
  · cases c with
    | powerOn time pins => exact absurd rfl (noPower time pins)
    | resetN time => exact absurd rfl (noReset time)
    | resetNRelease time pins => exact absurd rfl (noRelease time pins)
    | _ => exact congrArg Host.Outcome.next (event_inReset _ held)
  · exact congrArg Host.Outcome.next (if_neg (by simp [free]))

end Sys2Proof.Machine
end

section
/-! PROOF. The end of a pulse frees its current and its bank's driver, and a launch pass follows (R70, R73; O24); so it does a bank's
recovery and the end of a pending element's lockout (R72 to R74; O27). -/

namespace Sys2Proof.Machine

/-! ## When the front stays still -/

/-- A front stays still where the queues, the ports, the agent, the engine and the mode stand, and the latch list loses no last entry. -/
theorem frontStill_of_same {s t : State} (lnk : t.lnk = s.lnk) (fwq : t.fwq = s.fwq) (rtq : t.rtq.queue = s.rtq.queue ∧
    t.rtq.responseHeld = s.rtq.responseHeld ∧ t.rtq.report = s.rtq.report) (mga : t.mga = s.mga) (ste : t.ste = s.ste)
    (mode : t.mdc.mode = s.mdc.mode) (latch : s.csd.latch ≠ [] → t.csd.latch ≠ []) (q : s.frontStill) : t.frontStill := by
  have same : SameFront s t := ⟨by rw [fwq], by rw [lnk], mga, rtq.2.1⟩
  refine same.frontStill (same.stepWaits mode (by rw [lnk]) fun f => ?_) q
  exact stepBarred_of_same (by simp [ste]) latch (reportBarred_of_same rtq.1 (by rw [lnk]) rtq.2.2)

/-! ## What the Verify Unit does -/

/-- The Verify Unit does nothing while it is FREE with nothing to choose, waits for a claimed bank, or verifies. -/
theorem verifyAction_eq_none_iff {s : State} : verifyAction s = none ↔
    (s.vfu.activity = .free → verifyChoice s = none) ∧
      ∀ b k, s.vfu.activity = .claimed b k → s.csd.bankIdle b s.now = false := by
  unfold verifyAction
  split
  · next free => simp [free]
  · next b k claimed => simp [claimed]
  · next b k due verifying => simp [verifying]

/-! ## The end of a pulse -/

/-- Settles O24: the ended pulse stays in flight, settling, when the consequences are drawn. -/
theorem pulseEndFreesTheBank : Obligations.PulseEndFreesTheBank := by
  intro i p s running q pulse phase e
  have effect : pulseEndEffect i s = e := by simp [pulseEndEffect, pulse, phase, endPulse, e]
  have still : e.frontStill := frontStill_of_same rfl rfl ⟨rfl, rfl, rfl⟩ rfl rfl rfl id q
  have ended : e.csd.pulses[i] = some { p with phase := .settleTime } := by simp [e]
  have flight : e.csd.anyInFlight = true := by
    rw [← Bool.not_eq_false, anyInFlight_eq_false_iff]
    exact fun rest => by rw [rest i] at ended; cases ended
  have own : KeptChain (s.advance p.endAt) e := .ofSame rfl rfl rfl rfl rfl rfl rfl rfl rfl fun _ => flight
  have after := settled_keptAfterPass still rfl
  have flies := after.1.flights i _ ended
  refine ⟨settled e, ?_, own.trans (settled_kept e still).1, after, ?_, ?_⟩
  · exact congrArg Host.Outcome.next ((event_running _ running).trans (congrArg settled effect))
  · simp [Csd.drawn, flies]
  · simp [State.coilDrive, flies]

/-! ## The end of a recovery and of a lockout -/

/-- A pass made due by an effect that starts nothing else comes first, and finds the state of that effect. -/
theorem settled_passDue {s : State} (q : s.frontStill) (fresh : restartEvaluation s = none) (idle : verifyAction s = none) :
    KeptChain s (settled { s with csd.passDue := true }) ∧
      KeptMatrix (launchPass s) (settled { s with csd.passDue := true }) := by
  have still : State.frontStill { s with csd.passDue := true } :=
    frontStill_of_same (s := s) rfl rfl ⟨rfl, rfl, rfl⟩ rfl rfl rfl id q
  have own : KeptChain s { s with csd.passDue := true } := .ofSame rfl rfl rfl rfl rfl rfl rfl rfl rfl
  refine ⟨own.trans (settled_kept _ still).1, ?_⟩
  refine (settled_keptAfterPass still rfl).2 ?_ ?_
  · rw [restartEvaluation_eq_none_iff] at fresh ⊢
    exact fresh
  · rw [verifyAction_eq_none_iff] at idle ⊢
    exact idle

/-- Settles O27: either instant makes a pass due and changes nothing that the pass, an evaluation or the Verify Unit reads, but for the
expiry of the lockout itself. -/
theorem recoveryAndLockoutMakeAPass : Obligations.RecoveryAndLockoutMakeAPass := by
  constructor
  · intro b due s running q recovery fresh idle
    have still : (s.advance due).frontStill := frontStill_of_same (s := s) rfl rfl ⟨rfl, rfl, rfl⟩ rfl rfl rfl id q
    have effect : recoveryEffect b s = { s.advance due with csd.passDue := true } := by simp [recoveryEffect, recovery]
    refine ⟨_, congrArg Host.Outcome.next ((event_running _ running).trans (congrArg settled effect)), ?_⟩
    exact settled_passDue still (by rw [restartEvaluation_eq_none_iff] at fresh ⊢; exact fresh) idle
  · intro i target c last s running q pending cls launched fresh idle e
    have still : e.frontStill := frontStill_of_same rfl rfl ⟨rfl, rfl, rfl⟩ rfl rfl rfl id q
    have effect : lockoutEffect i s = { e with csd.passDue := true } := by
      simp [lockoutEffect, cls, launched, endLockout, pending, e]
    refine ⟨_, congrArg Host.Outcome.next ((event_running _ running).trans (congrArg settled effect)), ?_⟩
    refine settled_passDue still ?_ ?_
    · rw [restartEvaluation_eq_none_iff] at fresh ⊢
      exact fresh
    · rw [verifyAction_eq_none_iff] at idle ⊢
      exact idle

end Sys2Proof.Machine
end

section
/-! SUPPORT. What one launch leaves (R68, R69, R79, R81), what a launch pass signals from its first launch to its last, and that a pass
never makes an element eligible (R72, R73). -/

namespace Sys2Proof.Machine

/-! ## Flags that a signal does not concern -/

/-- A signal leaves every other flag as it is. -/
theorem signal_isLatched_other {f g : Flag} (other : f.bit ≠ g.bit) (s : State) :
    (signal f s).isLatched g = s.isLatched g := by
  unfold signal latchFlag
  split
  · simp [State.isLatched]
  · simp [State.isLatched, Flag.set, g.bit_lt, Ne.symm other]

theorem hotEvent_wear (s : State) :
    (hotEvent s).isLatched .wear = s.isLatched .wear ∧ (hotEvent s).ste.wearFlag = s.ste.wearFlag := by
  have flag := signal_isLatched_other (f := .hot) (g := .wear) (by decide) { s with evu.hotCount := countUp s.evu.hotCount }
  refine ⟨Eq.trans ?_ flag, by simp⟩
  unfold hotEvent
  dsimp only
  split <;> rfl

theorem wearEvent_hot (s : State) : (wearEvent s).isLatched .hot = s.isLatched .hot ∧ (wearEvent s).ste.hot = s.ste.hot := by
  refine ⟨Eq.trans ?_ (signal_isLatched_other (f := .wear) (g := .hot) (by decide) s), by simp⟩
  unfold wearEvent
  dsimp only
  split <;> rfl

theorem wearEvent_isLatched (s : State) : (wearEvent s).isLatched .wear = true := by
  unfold wearEvent
  dsimp only
  split <;> exact signal_isLatched .wear _

theorem wearEvent_wearFlag {s : State} (holds : s.ste.holdsStep = true) : (wearEvent s).ste.wearFlag = true := by
  simp [wearEvent, holds]

/-! ## One launch -/

section
variable (d : Drive) (e : Elem) (c : ClassRec) (q : Pos) (s : State)

/-- The launch before what it signals: the pulse in flight, its instant, the wear counted (R69, R79). -/
def launchRecord : State :=
  { s with
    csd.pending := s.csd.pending.set e none
    csd.pulses := s.csd.pulses.set e (some (newPulse s d e c q))
    csd.lastLaunch := s.csd.lastLaunch.set e (some s.now)
    tbs.wear := s.tbs.wear.set e (min (s.tbs.wear[e] + 1) Config.wearCap) }

/-- The launch brings the wear count to the class's limit (R79). -/
abbrev reachesLimit : Prop :=
  min (s.tbs.wear[e] + 1) Config.wearCap ≠ s.tbs.wear[e] ∧ min (s.tbs.wear[e] + 1) Config.wearCap = c.wearLimit ∧
    c.wearLimit ≠ 0

/-- The launch with its WEAR signalled (R79). -/
def launchWorn : State := if reachesLimit e c s then wearEvent (launchRecord d e c q s) else launchRecord d e c q s

theorem launch_eq : launch d e c q s = if s.rfPresent then hotEvent (launchWorn d e c q s) else launchWorn d e c q s := by
  have worn : countLaunch e c { s with
      csd.pending := s.csd.pending.set e none
      csd.pulses := s.csd.pulses.set e (some (newPulse s d e c q))
      csd.lastLaunch := s.csd.lastLaunch.set e (some s.now) } = launchWorn d e c q s := rfl
  have lit : (launchWorn d e c q s).rfPresent = s.rfPresent := by
    unfold launchWorn
    split <;> simp [State.rfPresent, launchRecord]
  unfold launch
  dsimp only
  rw [worn, lit]

theorem launchWorn_frame : (launchWorn d e c q s).csd = (launchRecord d e c q s).csd ∧
    (launchWorn d e c q s).tbs = (launchRecord d e c q s).tbs ∧ (launchWorn d e c q s).ste.hot = s.ste.hot ∧
    (launchWorn d e c q s).isLatched .hot = s.isLatched .hot ∧ (launchWorn d e c q s).evu.hotCount = s.evu.hotCount ∧
    (launchWorn d e c q s).ste.holdsStep = s.ste.holdsStep := by
  unfold launchWorn
  split
  · obtain ⟨latched, hot⟩ := wearEvent_hot (launchRecord d e c q s)
    exact ⟨by simp, by simp, hot, latched, by simp [launchRecord], by simp [Ste.holdsStep, launchRecord]⟩
  · exact ⟨rfl, rfl, rfl, rfl, rfl, rfl⟩

/-- What a launch leaves of the element, its class and the coils (R68, R69). -/
theorem launch_record : (launch d e c q s).csd = (launchRecord d e c q s).csd ∧
    (launch d e c q s).tbs = (launchRecord d e c q s).tbs := by
  obtain ⟨csd, tbs, -⟩ := launchWorn_frame d e c q s
  rw [launch_eq]
  split <;> simp [csd, tbs]

/-- With RF_PRESENT asserted a launch is a hot event (R81). -/
theorem launch_lit (lit : s.rfPresent = true) : (launch d e c q s).isLatched .hot = true ∧
    (s.ste.holdsStep = true → (launch d e c q s).ste.hot = true) ∧
    (launch d e c q s).evu.hotCount = min (s.evu.hotCount + 1) 65535 := by
  obtain ⟨-, -, -, -, count, holds⟩ := launchWorn_frame d e c q s
  rw [launch_eq, if_pos lit]
  exact ⟨hotEvent_isLatched _, fun h => hotEvent_hot (holds.trans h), by rw [hotEvent_hotCount, count]⟩

theorem launch_dark (dark : s.rfPresent = false) : (launch d e c q s).isLatched .hot = s.isLatched .hot ∧
    (launch d e c q s).ste.hot = s.ste.hot ∧ (launch d e c q s).evu.hotCount = s.evu.hotCount := by
  obtain ⟨-, -, hot, latched, count, -⟩ := launchWorn_frame d e c q s
  rw [launch_eq, if_neg (by simp [dark])]
  exact ⟨latched, hot, count⟩

/-- The flags of a launch that wears its element out, or does not, are those before its hot event. -/
theorem launch_wear : (launch d e c q s).isLatched .wear = (launchWorn d e c q s).isLatched .wear ∧
    (launch d e c q s).ste.wearFlag = (launchWorn d e c q s).ste.wearFlag := by
  rw [launch_eq]
  split
  · exact hotEvent_wear _
  · exact ⟨rfl, rfl⟩

theorem launch_worn (worn : reachesLimit e c s) : (launch d e c q s).isLatched .wear = true ∧
    (s.ste.holdsStep = true → (launch d e c q s).ste.wearFlag = true) := by
  obtain ⟨latched, flag⟩ := launch_wear d e c q s
  rw [latched, flag, launchWorn, if_pos worn]
  exact ⟨wearEvent_isLatched _, fun holds => wearEvent_wearFlag (s := launchRecord d e c q s) holds⟩

theorem launch_unworn (unworn : ¬reachesLimit e c s) : (launch d e c q s).isLatched .wear = s.isLatched .wear ∧
    (launch d e c q s).ste.wearFlag = s.ste.wearFlag := by
  obtain ⟨latched, flag⟩ := launch_wear d e c q s
  rw [latched, flag, launchWorn, if_neg unworn]
  exact ⟨rfl, rfl⟩

end

/-! ## What moves along a pass -/

/-- The elements that have been launched from `s` to `u`. -/
def launchedFrom (s u : State) : List Elem := allElems.filter (fun i => u.csd.pulses[i] ≠ s.csd.pulses[i])

theorem mem_launchedFrom {s u : State} {i : Elem} : i ∈ launchedFrom s u ↔ u.csd.pulses[i] ≠ s.csd.pulses[i] := by
  simp [launchedFrom, allElems]

theorem launchedFrom_eq_nil_iff {s u : State} :
    launchedFrom s u = [] ↔ ∀ i : Elem, u.csd.pulses[i] = s.csd.pulses[i] := by
  simp [launchedFrom, allElems]

/-- A list filtered by a disjunction of two tests that exclude each other. -/
theorem length_filter_of_split {α : Type} (l : List α) {p q r : α → Bool} (either : ∀ x, p x = (q x || r x))
    (once : ∀ x, q x = true → r x = false) : (l.filter p).length = (l.filter q).length + (l.filter r).length := by
  induction l with
  | nil => rfl
  | cons x l ih =>
    simp only [List.filter_cons, either x]
    cases hq : q x with
    | true =>
      rw [once x hq]
      simp [ih]
      omega
    | false => cases hr : r x <;> simp [ih]; omega

section
variable {s t u : State} (h : Passed s t) (g : Passed t u)
include h

/-- An element that is launched was at rest, and its pulse stands to the end of the pass. -/
theorem Passed.moved {i : Elem} (moved : t.csd.pulses[i] ≠ s.csd.pulses[i]) : s.csd.pulses[i] = none ∧
    ∃ p, t.csd.pulses[i] = some p := by
  cases rest : s.csd.pulses[i] with
  | some p => exact absurd (h.flights i p rest) (by rwa [rest] at moved)
  | none => exact ⟨rfl, Option.ne_none_iff_exists'.mp (by rwa [rest] at moved)⟩

include g in
theorem Passed.moved_once {i : Elem} (moved : t.csd.pulses[i] ≠ s.csd.pulses[i]) :
    u.csd.pulses[i] = t.csd.pulses[i] := by
  obtain ⟨-, p, flies⟩ := h.moved moved
  rw [g.flights i p flies, flies]

include g in
theorem Passed.moved_trans (i : Elem) : u.csd.pulses[i] ≠ s.csd.pulses[i] ↔
    t.csd.pulses[i] ≠ s.csd.pulses[i] ∨ u.csd.pulses[i] ≠ t.csd.pulses[i] := by
  by_cases first : t.csd.pulses[i] = s.csd.pulses[i]
  · simp [first]
  · simp [h.moved_once g first]

include g in
theorem Passed.launchedFrom_length :
    (launchedFrom s u).length = (launchedFrom s t).length + (launchedFrom t u).length := by
  refine length_filter_of_split allElems (fun i => ?_) fun i first => ?_
  · rw [Bool.eq_iff_iff]
    simpa using h.moved_trans g i
  · simpa using h.moved_once g (by simpa using first)

/-- An entry that is still pending was so before the pass, and its element has not been launched. -/
theorem Passed.still_pending {i : Elem} {q : Pos} (pending : t.csd.pending[i] = some q) :
    t.csd.pulses[i] = s.csd.pulses[i] ∧ s.csd.pending[i] = some q := by
  by_cases same : t.csd.pulses[i] = s.csd.pulses[i]
  · exact ⟨same, (h.worn i same).2.2.symm.trans pending⟩
  · obtain ⟨rest, p, flies⟩ := h.moved same
    have gone := h.launches i p flies (by simp [rest])
    rw [gone.2.2.2.2.2.2] at pending
    cases pending

theorem Passed.classOf (i : Elem) : t.tbs.classOf i = s.tbs.classOf i := by
  rw [h.tables]
  rfl

theorem Passed.rfPresent : t.rfPresent = s.rfPresent := by rw [State.rfPresent, h.axu]; rfl

theorem Passed.holdsStep : t.ste.holdsStep = s.ste.holdsStep := by rw [h.engine]; rfl

/-- A pass makes no element eligible: it only takes current, drivers and rest away (R72, R73). -/
theorem Passed.eligible_before {i : Elem} {c : ClassRec} (may : eligible t i c = true) : eligible s i c = true := by
  obtain ⟨fits, alone, recovered, lockout, rest, unclaimed, good⟩ := eligible_iff.mp may
  have same : t.csd.pulses[i] = s.csd.pulses[i] := by
    by_contra moved
    obtain ⟨-, p, flies⟩ := h.moved moved
    simp [Csd.inTransit, flies] at rest
  have drawn : ∀ e ∈ allElems, s.csd.drawn e ≤ t.csd.drawn e := by
    intro e _
    unfold Csd.drawn
    split
    · next p flies => rw [h.flights e p flies]
    · exact Nat.zero_le _
  have driving : ∀ e, s.csd.isDriving e = true → t.csd.isDriving e = true := by
    intro e drives
    unfold Csd.isDriving at drives ⊢
    split at drives
    · next p flies => rwa [h.flights e p flies]
    · cases drives
  refine eligible_iff.mpr ⟨?_, ?_, ?_, ?_, ?_, ?_, h.supply.symm.trans good⟩
  · have charged : s.csd.charged ≤ t.csd.charged := List.sum_le_sum drawn
    rw [h.tables] at fits
    exact le_trans (Nat.add_le_add_right charged _) fits
  · rw [bankDriving_eq_false_iff] at alone ⊢
    intro e be
    by_contra drives
    have := alone e be
    rw [driving e (by simpa using drives)] at this
    cases this
  · rwa [Csd.recovered, h.recovery.1, h.now] at recovered
  · rwa [lockoutPassed, (h.worn i same).2.1, h.lockouts, h.now] at lockout
  · rwa [Csd.inTransit, same] at rest
  · rwa [h.vfu] at unclaimed

end

/-! ## A pass with what it signals -/

/-- Some launch from `s` to `u` has brought its element's wear count to the class's limit. -/
def WornOut (s u : State) : Prop := ∃ i ∈ launchedFrom s u, ∃ c, s.tbs.classOf i = some c ∧ c.wearLimit ≠ 0 ∧
  u.tbs.wear[i] = c.wearLimit ∧ s.tbs.wear[i] ≠ c.wearLimit

/-- From `s` to `u` pending elements of the drive have been launched, with the records and the signals of their launches. -/
structure LaunchedBy (d : Drive) (s u : State) : Prop extends Passed s u where
  records : ∀ (i : Elem) (p : Pulse), u.csd.pulses[i] = some p → s.csd.pulses[i] ≠ some p →
    u.csd.lastLaunch[i] = some s.now ∧ u.tbs.wear[i] = min (s.tbs.wear[i] + 1) 16777215 ∧
      ∃ q c, s.csd.pending[i] = some q ∧ s.tbs.classOf i = some c ∧ p = newPulse s d i c q
  lit : s.rfPresent = true → launchedFrom s u ≠ [] →
    u.isLatched .hot = true ∧ (s.ste.holdsStep = true → u.ste.hot = true)
  count : s.rfPresent = true → s.evu.hotCount ≤ 65535 →
    u.evu.hotCount = min (s.evu.hotCount + (launchedFrom s u).length) 65535
  dark : s.rfPresent = false ∨ launchedFrom s u = [] →
    u.isLatched .hot = s.isLatched .hot ∧ u.ste.hot = s.ste.hot ∧ u.evu.hotCount = s.evu.hotCount
  reached : WornOut s u → u.isLatched .wear = true ∧ (s.ste.holdsStep = true → u.ste.wearFlag = true)
  unreached : ¬WornOut s u → u.isLatched .wear = s.isLatched .wear ∧ u.ste.wearFlag = s.ste.wearFlag

theorem LaunchedBy.refl (d : Drive) (s : State) : LaunchedBy d s s := by
  have none_launched : launchedFrom s s = [] := launchedFrom_eq_nil_iff.mpr fun _ => rfl
  exact
    { Passed.refl s with
      records := fun i p flies new => absurd flies new
      lit := fun _ some_launched => absurd none_launched some_launched
      count := fun _ low => by rw [none_launched]; exact (min_eq_left low).symm
      dark := fun _ => ⟨rfl, rfl, rfl⟩
      reached := fun ⟨i, mem, _⟩ => by rw [none_launched] at mem; cases mem
      unreached := fun _ => ⟨rfl, rfl⟩ }

/-- An element that has worn out did so in one of the two parts of a pass. -/
theorem wornOut_trans {s t u : State} (h : Passed s t) (g : Passed t u) : WornOut s u ↔ WornOut s t ∨ WornOut t u := by
  have later : ∀ {i : Elem}, u.csd.pulses[i] ≠ t.csd.pulses[i] → t.csd.pulses[i] = s.csd.pulses[i] := by
    intro i moved
    by_contra first
    exact moved (h.moved_once g first)
  unfold WornOut
  simp only [mem_launchedFrom]
  constructor
  · rintro ⟨i, mem, c, cls, limit, reached, below⟩
    by_cases first : t.csd.pulses[i] = s.csd.pulses[i]
    · exact .inr ⟨i, by rwa [first], c, (h.classOf i).trans cls, limit, reached, by rwa [(h.worn i first).1]⟩
    · exact .inl ⟨i, first, c, cls, limit, by rwa [← (g.worn i (h.moved_once g first)).1], below⟩
  · rintro (⟨i, mem, c, cls, limit, reached, below⟩ | ⟨i, mem, c, cls, limit, reached, below⟩)
    · exact ⟨i, (h.moved_trans g i).mpr (.inl mem), c, cls, limit, by rwa [(g.worn i (h.moved_once g mem)).1], below⟩
    · exact ⟨i, (h.moved_trans g i).mpr (.inr mem), c, (h.classOf i).symm.trans cls, limit, reached,
        by rwa [← (h.worn i (later mem)).1]⟩

theorem LaunchedBy.trans {d : Drive} {s t u : State} (h : LaunchedBy d s t) (g : LaunchedBy d t u) : LaunchedBy d s u := by
  have passed := h.toPassed.trans g.toPassed
  have length := h.launchedFrom_length g.toPassed
  have nil : launchedFrom s u = [] ↔ launchedFrom s t = [] ∧ launchedFrom t u = [] := by
    simp only [← List.length_eq_zero_iff]
    omega
  have rf := h.rfPresent
  have worn := wornOut_trans h.toPassed g.toPassed
  refine { passed with records := ?_, lit := ?_, count := ?_, dark := ?_, reached := ?_, unreached := ?_ }
  · intro i p flies new
    by_cases first : t.csd.pulses[i] = some p
    · obtain ⟨last, wear, record⟩ := h.records i p first new
      obtain ⟨wear', last', -⟩ := g.toPassed.worn i (flies.trans first.symm)
      exact ⟨last'.trans last, wear'.trans wear, record⟩
    · obtain ⟨last, wear, q, c, pending, cls, pulse⟩ := g.records i p flies first
      have same : t.csd.pulses[i] = s.csd.pulses[i] := by
        by_contra moved
        exact first ((h.moved_once g.toPassed moved).symm.trans flies)
      obtain ⟨wear', -, pending'⟩ := h.toPassed.worn i same
      refine ⟨by rw [last, h.now], by rw [wear, wear'], q, c, pending'.symm.trans pending, (h.classOf i).symm.trans cls, ?_⟩
      rw [pulse, newPulse, newPulse, h.recorded, h.now]
  · intro lit launched
    by_cases after : launchedFrom t u = []
    · obtain ⟨latched, hot⟩ := h.lit lit fun before => launched (nil.mpr ⟨before, after⟩)
      obtain ⟨latched', hot', -⟩ := g.dark (.inr after)
      exact ⟨latched'.trans latched, fun holds => hot'.trans (hot holds)⟩
    · exact (g.lit (rf.trans lit) after).imp_right fun hot holds => hot (h.holdsStep.trans holds)
  · intro lit low
    have first := h.count lit low
    rw [g.count (rf.trans lit) (by omega), first, length]
    omega
  · intro dark
    obtain ⟨latched, hot, count⟩ := h.dark (dark.imp_right fun e => (nil.mp e).1)
    obtain ⟨latched', hot', count'⟩ := g.dark (dark.imp (rf.trans ·) fun e => (nil.mp e).2)
    exact ⟨latched'.trans latched, hot'.trans hot, count'.trans count⟩
  · intro wore
    by_cases after : WornOut t u
    · exact (g.reached after).imp_right fun flag holds => flag (h.holdsStep.trans holds)
    · obtain ⟨latched, flag⟩ := h.reached ((worn.mp wore).resolve_right after)
      obtain ⟨latched', flag'⟩ := g.unreached after
      exact ⟨latched'.trans latched, fun holds => flag'.trans (flag holds)⟩
  · intro unworn
    obtain ⟨before, after⟩ := not_or.mp (mt worn.mpr unworn)
    obtain ⟨latched, flag⟩ := h.unreached before
    obtain ⟨latched', flag'⟩ := g.unreached after
    exact ⟨latched'.trans latched, flag'.trans flag⟩

/-- One launch of an eligible pending element. -/
theorem launch_launchedBy {d : Drive} {e : Elem} {c : ClassRec} {q : Pos} {s : State} (pending : s.csd.pending[e] = some q)
    (cls : s.tbs.classOf e = some c) (may : eligible s e c = true) : LaunchedBy d s (launch d e c q s) := by
  have rest := (eligible_rest may).1
  obtain ⟨csd, tbs⟩ := launch_record d e c q s
  have own : (launch d e c q s).csd.pulses[e] = some (newPulse s d e c q) := by simp [csd, launchRecord]
  have others : ∀ i : Elem, i ≠ e → (launch d e c q s).csd.pulses[i] = s.csd.pulses[i] := by
    intro i other
    have apart : e.val ≠ i.val := fun h => other (Fin.ext h.symm)
    simp [csd, launchRecord, Vector.getElem_set_ne, apart]
  have wear : (launch d e c q s).tbs.wear[e] = min (s.tbs.wear[e] + 1) Config.wearCap := by simp [tbs, launchRecord]
  have moved : ∀ i : Elem, (launch d e c q s).csd.pulses[i] ≠ s.csd.pulses[i] ↔ i = e := by
    intro i
    refine ⟨fun new => by_contra fun other => new (others i other), ?_⟩
    rintro rfl
    rw [own, rest]
    exact Option.some_ne_none _
  have one : launchedFrom s (launch d e c q s) = [e] := by
    have tests : launchedFrom s (launch d e c q s) = allElems.filter (· == e) := by
      simp only [launchedFrom, moved]
      rfl
    rw [tests, List.filter_beq, allElems, List.count_eq_one_of_mem (List.nodup_finRange 48) (List.mem_finRange e)]
    rfl
  have worn : WornOut s (launch d e c q s) ↔ reachesLimit e c s := by
    simp only [WornOut, one, List.mem_singleton, exists_eq_left, cls, Option.some.injEq, exists_eq_left', wear]
    grind
  refine { launch_passes pending may with
    records := ?_, lit := ?_, count := ?_, dark := ?_, reached := ?_, unreached := ?_ }
  · intro i p flies new
    obtain rfl : i = e := (moved i).mp (by rw [flies]; exact fun same => new same.symm)
    rw [own] at flies
    cases flies
    exact ⟨by simp [csd, launchRecord], wear, q, c, pending, cls, rfl⟩
  · intro lit _
    exact ⟨(launch_lit d e c q s lit).1, (launch_lit d e c q s lit).2.1⟩
  · intro lit _
    rw [one]
    exact (launch_lit d e c q s lit).2.2
  · rintro (dark | none_launched)
    · exact launch_dark d e c q s dark
    · rw [one] at none_launched
      cases none_launched
  · exact fun wore => launch_worn d e c q s (worn.mp wore)
  · exact fun unworn => launch_unworn d e c q s (mt worn.mpr unworn)

end Sys2Proof.Machine
end

section
/-! PROOF. A launch pass launches what is eligible at its turn, and leaves nothing eligible waiting (R68, R69, R72 to R74, R79, R81; O28). -/

namespace Sys2Proof.Machine

/-- An element's turn in a pass: it is launched, or it has no target, no class, or is not eligible. -/
theorem considerLaunch_cases (d : Drive) (s : State) (e : Elem) :
    (∃ q c, s.csd.pending[e] = some q ∧ s.tbs.classOf e = some c ∧ eligible s e c = true ∧
      considerLaunch d s e = launch d e c q s) ∨
    (considerLaunch d s e = s ∧ ∀ q c, s.csd.pending[e] = some q → s.tbs.classOf e = some c → eligible s e c = false) := by
  unfold considerLaunch
  split
  · next q c pending cls =>
    split
    · next may => exact .inl ⟨q, c, pending, cls, may, rfl⟩
    · next no =>
      refine .inr ⟨rfl, fun q' c' _ cls' => ?_⟩
      rw [cls] at cls'
      cases cls'
      simpa using no
  · next none_of => exact .inr ⟨rfl, fun q c pending cls => absurd cls (none_of q c pending)⟩

theorem considerLaunch_launchedBy (d : Drive) (s : State) (e : Elem) : LaunchedBy d s (considerLaunch d s e) := by
  obtain ⟨q, c, pending, cls, may, h⟩ | ⟨h, -⟩ := considerLaunch_cases d s e <;> rw [h]
  · exact launch_launchedBy pending cls may
  · exact .refl d s

theorem foldLaunch_launchedBy (d : Drive) (l : List Elem) (s : State) : LaunchedBy d s (l.foldl (considerLaunch d) s) := by
  induction l generalizing s with
  | nil => exact .refl d s
  | cons e l ih => exact (considerLaunch_launchedBy d s e).trans (ih _)

/-- An element that has had its turn and still waits is not eligible (R73). -/
theorem foldLaunch_none_eligible (d : Drive) (l : List Elem) (s : State) {i : Elem} {q : Pos} {c : ClassRec} (turn : i ∈ l)
    (pending : (l.foldl (considerLaunch d) s).csd.pending[i] = some q)
    (cls : (l.foldl (considerLaunch d) s).tbs.classOf i = some c) :
    eligible (l.foldl (considerLaunch d) s) i c = false := by
  induction l generalizing s with
  | nil => cases turn
  | cons e l ih =>
    obtain rfl | turn := List.mem_cons.mp turn
    · have first := considerLaunch_passed d s i
      have rest := foldLaunch_passed d l (considerLaunch d s i)
      have waits := (rest.still_pending pending).2
      have waited := (first.still_pending waits).2
      by_contra may
      have may := rest.eligible_before (by simpa using may)
      have may' := first.eligible_before may
      obtain ⟨q', c', -, -, -, h⟩ | ⟨-, no⟩ := considerLaunch_cases d s i
      · rw [h, (launch_record d i c' q' s).1] at waits
        simp [launchRecord] at waits
      · rw [no q c waited ((first.classOf i).symm.trans ((rest.classOf i).symm.trans cls))] at may'
        cases may'
    · exact ih (considerLaunch d s e) turn pending cls

/-- A pass of a drive is the turns of all elements, after which none that waits is eligible; the drive and the pass itself are then
forgotten. -/
theorem launchPass_launchedBy {d : Drive} {s : State} (drive : s.csd.drive = some d) :
    ∃ t x, launchPass s = { t with csd.drive := x } ∧ LaunchedBy d { s with csd.passDue := false } t ∧
      ∀ (i : Elem) (q : Pos) (c : ClassRec), t.csd.pending[i] = some q → t.tbs.classOf i = some c →
        eligible t i c = false := by
  have launched := foldLaunch_launchedBy d allElems { s with csd.passDue := false }
  have ineligible := fun i q c => foldLaunch_none_eligible d allElems { s with csd.passDue := false } (i := i) (q := q) (c := c)
    (List.mem_finRange i)
  unfold launchPass
  dsimp only
  split
  · next forgotten => rw [drive] at forgotten; cases forgotten
  · next d' same =>
    cases drive.symm.trans same
    generalize allElems.foldl (considerLaunch d) { s with csd.passDue := false } = t at launched ineligible
    refine ⟨t, if t.csd.pending.isEmpty then none else t.csd.drive, ?_, launched, ineligible⟩
    unfold settleDrive
    split <;> rfl

/-- What an ineligible element lacks (R72). -/
theorem eligible_eq_false {s : State} {i : Elem} {c : ClassRec} (no : eligible s i c = false) :
    s.tbs.core.budget < s.csd.charged + c.current ∨ (∃ j : Elem, bankOf j = bankOf i ∧ s.csd.isDriving j = true) ∨
      (∃ t, s.csd.recoveryUntil[bankOf i] = some t ∧ s.now < t) ∨
      (∃ t, s.csd.lastLaunch[i] = some t ∧
        (s.now < t + c.lockout ∨ (s.now = t + c.lockout ∧ 0 < c.lockout ∧ s.csd.lockoutOver[i] ≠ some s.now))) ∨
      s.csd.pulses[i] ≠ none ∨
      (∃ k, s.vfu.activity = .claimed (bankOf i) k) ∨ (∃ k due, s.vfu.activity = .verifying (bankOf i) k due) ∨
      s.csd.supply = .low := by
  by_contra every
  simp only [not_or, not_exists, not_and, not_lt, not_not] at every
  obtain ⟨fits, alone, recovered, lockout, rest, unclaimed, unverified, supply⟩ := every
  have may : eligible s i c = true := by
    refine eligible_iff.mpr ⟨fits, ?_, ?_, ?_, by simp [Csd.inTransit, rest], ?_, ?_⟩
    · exact bankDriving_eq_false_iff.mpr fun e be => by simpa using alone e be
    · unfold Csd.recovered
      split
      · rfl
      · next t until_ => simpa using recovered t until_
    · unfold lockoutPassed
      split
      · rfl
      · next t last =>
        obtain ⟨reached, taken⟩ := lockout t last
        simp only [Bool.or_eq_true, Bool.and_eq_true, decide_eq_true_eq, beq_iff_eq]
        rcases reached.lt_or_eq with before | now
        · exact .inl before
        · refine .inr ⟨now, ?_⟩
          by_cases zero : c.lockout = 0
          · exact .inl zero
          · exact .inr (taken now.symm (Nat.pos_of_ne_zero zero))
    · cases activity : s.vfu.activity with
      | free => rfl
      | claimed b k => simpa [Activity.freeOf] using fun same => unclaimed k (activity.trans (by rw [same]))
      | verifying b k due => simpa [Activity.freeOf] using fun same => unverified k due (activity.trans (by rw [same]))
    · cases h : s.csd.supply with
      | good => rfl
      | low => exact absurd h supply
  rw [may] at no
  cases no

/-- Settles O28: the pass is the turns of all elements in order, each launched by its turn or ineligible from its turn on. -/
theorem launchPassLeavesNoneEligible : Obligations.LaunchPassLeavesNoneEligible := by
  intro d s drive
  obtain ⟨t, x, pass, launched, ineligible⟩ := launchPass_launchedBy drive
  rw [pass]
  intro u
  refine ⟨fun i q c pending cls => ?_, fun i p flies new => ?_, ?_⟩
  · have lacks := eligible_eq_false (ineligible i q c pending ((launched.classOf i).trans cls))
    rw [launched.now, launched.vfu, launched.lockouts, launched.supply, launched.tables] at lacks
    exact lacks
  · have waits := (launched.launches i p flies new).2.2.2.2.2.2
    exact ⟨waits, launched.records i p flies new⟩
  · exact ⟨fun lit some_launched => ⟨(launched.lit lit some_launched).1, (launched.lit lit some_launched).2, launched.count lit⟩,
      launched.dark, launched.reached, launched.unreached⟩

end Sys2Proof.Machine
end

section
/-! SUPPORT. An event after which no element is pending: its consequences restart an evaluation (R23), make a launch pass that launches
nothing (R73) and take a bank for a verify (R100) within four reactions; what comes next is a completed safe drive (R121) or the end
of the hold on an acknowledgement (R166). -/

namespace Sys2Proof.Machine

/-- A launch pass with nothing pending forgets the drive. -/
theorem launchPass_of_empty {s : State} (empty : ∀ i : Elem, s.csd.pending[i] = none) :
    launchPass s = { s with csd.passDue := false, csd.drive := none } := by
  have turn : ∀ d e, considerLaunch d { s with csd.passDue := false } e = { s with csd.passDue := false } := by
    intro d e
    simp [considerLaunch, empty e]
  have turns : ∀ d, allElems.foldl (considerLaunch d) { s with csd.passDue := false } = { s with csd.passDue := false } :=
    fun d => List.foldl_fixed' (turn d) allElems
  unfold launchPass
  dsimp only
  split
  · next forgotten => rw [← forgotten]
  · next d _ =>
    rw [turns d, settleDrive, if_pos (Targets.isEmpty_iff.mpr empty)]

/-- How far the Verify Unit is from a verify in progress. -/
def Activity.stage : Activity → Nat
  | .free => 2
  | .claimed _ _ => 1
  | .verifying _ _ _ => 0

theorem takeBank_stage (k : VerifyKind) (b : Bank) (s : State) : (takeBank k b s).vfu.activity.stage < 2 := by
  unfold takeBank startVerify
  split <;> simp [Activity.stage]

/-- The Verify Unit's choice or start brings a verify nearer, and is an activity alone. -/
theorem verifyAction_advances {s t : State} (h : verifyAction s = some t) :
    (∃ a, t = { s with vfu.activity := a }) ∧ t.vfu.activity.stage < s.vfu.activity.stage := by
  refine ⟨(verifyAction_eq h).2, ?_⟩
  unfold verifyAction at h
  split at h
  · next free =>
    obtain ⟨x, -, rfl⟩ := Option.map_eq_some_iff.mp h
    rw [free]
    exact takeBank_stage _ _ _
  · next claimed =>
    rw [claimed]
    split at h <;> cases h
    simp [startVerify, Activity.stage]
  · cases h

/-- With a still front no take comes beside the Verify Unit's choice (R101). -/
theorem chooseVerify_of_still {s : State} (q : s.frontStill) : chooseVerify s = verifyAction s := by
  unfold chooseVerify
  split
  · next idle => exact idle.symm
  · next taken _ => exact taken.symm
  · next v x taken examined =>
    have same : x.ste = s.ste := by simp [dealAtChainEnd_frame s (examineHead_still q examined)]
    simp [same, taken]

/-- The state once a pass has been made, with a drive, an activity of the Verify Unit and a count of free choices. -/
def State.passed (s : State) (d : Option Drive) (a : Activity) (n : Nat) : State :=
  { s with csd.passDue := false, csd.drive := d, vfu.activity := a, choices := n }

/-- What an event still has to do before it completes a safe drive: a pass, and the Verify Unit's way to a verify. -/
def State.stage (s : State) : Nat := (if s.csd.passDue then 1 else 0) + s.vfu.activity.stage

theorem State.stage_le (s : State) : s.stage ≤ 3 := by
  have : s.vfu.activity.stage ≤ 2 := by cases s.vfu.activity <;> simp [Activity.stage]
  unfold State.stage
  split <;> omega

/-- One reaction where nothing is pending and no evaluation restarts: the pass, or the Verify Unit's choice or start. -/
theorem react_of_empty {s : State} (q : s.frontStill) (empty : ∀ i : Elem, s.csd.pending[i] = none)
    (fresh : restartEvaluation s = none) (more : ¬(s.csd.passDue = false ∧ verifyAction s = none)) :
    ∃ b d a n, react s = some { s with csd.passDue := b, csd.drive := d, vfu.activity := a, choices := n } ∧
      State.stage { s with csd.passDue := b, csd.drive := d, vfu.activity := a, choices := n } < s.stage := by
  have unpassed : ∀ {t}, makePass s = some t → react s = some t := fun h => by simp [react, fresh, h]
  have made : ∀ {t : State}, (∃ b d a n, t = { s with csd.passDue := b, csd.drive := d, vfu.activity := a, choices := n }) →
      t.stage < s.stage → react s = some t → ∃ b d a n,
        react s = some { s with csd.passDue := b, csd.drive := d, vfu.activity := a, choices := n } ∧
        State.stage { s with csd.passDue := b, csd.drive := d, vfu.activity := a, choices := n } < s.stage := by
    rintro t ⟨b, d, a, n, rfl⟩ less h
    exact ⟨b, d, a, n, h, less⟩
  cases due : s.csd.passDue with
  | false =>
    cases action : verifyAction s with
    | none => exact absurd ⟨due, action⟩ more
    | some v =>
      obtain ⟨⟨a, rfl⟩, less⟩ := verifyAction_advances action
      refine made (t := { s with vfu.activity := a }) ⟨s.csd.passDue, s.csd.drive, a, s.choices, rfl⟩ ?_
        (by simp [react, fresh, makePass, due, chooseVerify_of_still q, action])
      exact Nat.add_lt_add_left less _
  | true =>
    have pass : launchPass s = { s with csd.passDue := false, csd.drive := none } := launchPass_of_empty empty
    have less : State.stage { s with csd.passDue := false, csd.drive := none } < s.stage := by simp [State.stage, due]
    cases action : verifyAction s with
    | none => exact made ⟨_, _, _, _, pass⟩ (pass ▸ less) (unpassed (by simp [makePass, due, action]))
    | some v =>
      have pass' : launchPass s.chose = { s.chose with csd.passDue := false, csd.drive := none } := launchPass_of_empty empty
      obtain ⟨⟨a, rfl⟩, sooner⟩ := verifyAction_advances action
      by_cases meets : (a.bank.any (passLaunchesIn s)) = true
      · by_cases first : Config.verifyBeforeLaunch s.choices = true
        · refine made (t := State.chose { s with vfu.activity := a }) ⟨_, _, _, _, rfl⟩ ?_
            (unpassed (by simp [makePass, due, action, meets, first]))
          exact Nat.add_lt_add_left sooner _
        · refine made (t := launchPass s.chose) ⟨_, _, _, _, pass'⟩ ?_
            (unpassed (by simp [makePass, due, action, meets, first]))
          rw [pass']
          exact less
      · exact made ⟨_, _, _, _, pass⟩ (pass ▸ less) (unpassed (by simp [makePass, due, action, meets]))

/-- From a state with nothing pending and no evaluation to restart, at most three reactions lead to one that is the same but for the
pass, the drive, the Verify Unit's activity and the choices, in which neither a pass nor a verify is due. -/
theorem settle_passed {s : State} (q : s.frontStill) (empty : ∀ i : Elem, s.csd.pending[i] = none)
    (fresh : restartEvaluation s = none) (k n : Nat) (stage : s.stage ≤ k) (fuel : k ≤ n) :
    ∃ m d a c, n ≤ m + k ∧ settle n s = settle m (s.passed d a c) ∧ verifyAction (s.passed d a c) = none ∧
      (s.passed d a c).frontStill := by
  by_cases more : s.csd.passDue = false ∧ verifyAction s = none
  · have same : s.passed s.csd.drive s.vfu.activity s.choices = s := by
      simp only [State.passed, ← more.1]
    refine ⟨n, s.csd.drive, s.vfu.activity, s.choices, by omega, ?_⟩
    rw [same]
    exact ⟨rfl, more.2, q⟩
  · obtain ⟨b, d, a, c, reacts, less⟩ := react_of_empty q empty fresh more
    obtain ⟨k, rfl⟩ : ∃ j, k = j + 1 := ⟨k - 1, by omega⟩
    obtain ⟨n, rfl⟩ : ∃ j, n = j + 1 := ⟨n - 1, by omega⟩
    have still := (react_kept q reacts).still q
    have fresh' : restartEvaluation { s with csd.passDue := b, csd.drive := d, vfu.activity := a, choices := c } = none := by
      rw [restartEvaluation_eq_none_iff] at fresh ⊢
      exact fresh
    obtain ⟨m, d', a', c', rest⟩ := settle_passed still empty fresh' k n (by omega) (by omega)
    refine ⟨m, d', a', c', by omega, ?_, rest.2.2⟩
    rw [settle, reacts]
    exact rest.2.1
termination_by k

/-- An evaluation that has just begun holds every possible position (R16, R23). -/
theorem startEvaluation_fresh (s : State) : restartEvaluation (startEvaluation s) = none := by
  refine restartEvaluation_eq_none_iff.mpr fun v evaluation e p mem => ?_
  obtain rfl := Option.some.inj evaluation
  exact mem_snapshotSets.mpr (.inl mem)

/-- The state with its evaluation restarted, where that is due (R23). -/
def State.reevaluated (s : State) : State := (restartEvaluation s).getD s

theorem reevaluated_cases (s : State) : (restartEvaluation s = none ∧ s.reevaluated = s) ∨
    (∃ v, s.rev.evaluation = some v ∧ v.outdated s = true ∧ restartEvaluation s = some (startEvaluation s) ∧
      s.reevaluated = startEvaluation s) := by
  unfold State.reevaluated restartEvaluation
  cases h : s.rev.evaluation with
  | none => exact .inl ⟨rfl, rfl⟩
  | some v =>
    by_cases old : v.outdated s = true
    · exact .inr ⟨v, rfl, old, by simp [old], by simp [old]⟩
    · exact .inl ⟨by simp [old], by simp [old]⟩

theorem reevaluated_eq (s : State) : ∃ v, s.reevaluated = { s with rev.evaluation := v } := by
  obtain ⟨-, h⟩ | ⟨-, -, -, -, h⟩ := reevaluated_cases s <;> rw [h]
  · exact ⟨_, rfl⟩
  · exact ⟨_, rfl⟩

theorem reevaluated_fresh (s : State) : restartEvaluation s.reevaluated = none := by
  obtain ⟨fresh, h⟩ | ⟨-, -, -, -, h⟩ := reevaluated_cases s <;> rw [h]
  · exact fresh
  · exact startEvaluation_fresh s

/-- What the consequences of an event with nothing pending come to: the evaluation restarted where that is due, the pass made, the Verify
Unit with nothing to do. -/
structure Rested (s r : State) : Prop where
  reached : ∃ d a c, r = s.reevaluated.passed d a c
  idle : verifyAction r = none
  still : r.frontStill

theorem settle_rested {s : State} (q : s.frontStill) (empty : ∀ i : Elem, s.csd.pending[i] = none) {n : Nat} (fuel : 4 ≤ n) :
    ∃ m r, n ≤ m + 4 ∧ settle n s = settle m r ∧ Rested s r := by
  obtain ⟨v, same⟩ := reevaluated_eq s
  have empty' : ∀ i : Elem, s.reevaluated.csd.pending[i] = none := by rw [same]; exact empty
  have go : ∀ k, 3 ≤ k → k ≤ n → n ≤ k + 1 → s.reevaluated.frontStill → settle n s = settle k s.reevaluated →
      ∃ m r, n ≤ m + 4 ∧ settle n s = settle m r ∧ Rested s r := by
    intro k three _ near still first
    obtain ⟨m, d, a, c, left, rest, idle, still'⟩ :=
      settle_passed still empty' (reevaluated_fresh s) 3 k (State.stage_le _) three
    exact ⟨m, _, by omega, first.trans rest, ⟨d, a, c, rfl⟩, idle, still'⟩
  obtain ⟨-, h⟩ | ⟨-, -, -, restarts, h⟩ := reevaluated_cases s
  · exact go n (by omega) le_rfl (by omega) (by rw [h]; exact q) (by rw [h])
  · obtain ⟨k, rfl⟩ : ∃ k, n = k + 1 := ⟨n - 1, by omega⟩
    have reacts : react s = some s.reevaluated := by rw [h]; simp [react, restarts]
    exact go k (by omega) (by omega) le_rfl ((react_kept q reacts).still q) (by rw [settle, reacts])

section
variable {s r : State} (h : Rested s r)
include h

/-- Of a state at rest the engine, the agent, the chain, the tables and the mode are those of the event's own effect. -/
theorem Rested.frame : r.now = s.now ∧ r.lnk = s.lnk ∧ r.fwq = s.fwq ∧ r.rtq = s.rtq ∧ r.mga = s.mga ∧ r.tbs = s.tbs ∧
    r.ste = s.ste ∧ r.mdc = s.mdc ∧ r.csd.pulses = s.csd.pulses ∧ r.csd.recorded = s.csd.recorded ∧
    r.csd.latch = s.csd.latch ∧ r.csd.passDue = false ∧ r.rev.evaluation = s.reevaluated.rev.evaluation := by
  obtain ⟨d, a, c, rfl⟩ := h.reached
  obtain ⟨v, same⟩ := reevaluated_eq s
  rw [same]
  exact ⟨rfl, rfl, rfl, rfl, rfl, rfl, rfl, rfl, rfl, rfl, rfl, rfl, rfl⟩

theorem Rested.fresh : restartEvaluation r = none := by
  obtain ⟨d, a, c, rfl⟩ := h.reached
  have fresh := reevaluated_fresh s
  rw [restartEvaluation_eq_none_iff] at fresh ⊢
  exact fresh

theorem Rested.safeComplete_eq : safeComplete r = safeComplete s := by
  obtain ⟨-, -, -, -, -, -, -, mdc, pulses, -, latch, -⟩ := h.frame
  unfold safeComplete Csd.anyInFlight Csd.inTransit Csd.latchEmpty
  rw [mdc, pulses, latch]

theorem Rested.react_eq : react r = (completeSafe r).orElse fun _ => (endHold r).orElse fun _ =>
    (offerAnswer r).orElse fun _ => (offerReport r).orElse fun _ => (examineHead r).orElse fun _ =>
    (admissionPass r).orElse fun _ => (startTxB r).orElse fun _ => startTxA r := by
  obtain ⟨-, -, -, -, -, -, -, -, -, -, -, due, -⟩ := h.frame
  simp [react, h.fresh, makePass, due, chooseVerify_of_still h.still, h.idle]

end

/-! ## The evaluation (R23) -/

/-- After an event with nothing pending the evaluation goes on, or has begun afresh at that instant. -/
theorem settled_follows {s : State} (q : s.frontStill) (empty : ∀ i : Elem, s.csd.pending[i] = none)
    (open_ : safeComplete s = false) : EvaluationFollows s (settled s) := by
  obtain ⟨m, r, -, rest, h⟩ := settle_rested q empty (n := Config.settleFuel) (by decide)
  obtain ⟨now, -, -, -, -, tbs, -, -, pulses, recorded, -, due, evaluation⟩ := h.frame
  have calm : r.calm := ⟨due, h.safeComplete_eq.trans open_⟩
  have stood := settle_still m r h.still calm
  have rev := settle_rev m r h.still calm h.fresh
  have clock := (settle_kept m r h.still).2.clock
  rw [← rest] at stood rev clock
  change Still r (settled s) at stood
  change (settled s).rev = r.rev at rev
  change (settled s).now = r.now at clock
  generalize settled s = u at stood rev clock
  have table : ∀ i, possible u.tbs u.csd i = possible s.tbs s.csd i := by
    intro i
    rw [stood.tables, stood.coil]
    unfold possible
    rw [tbs, pulses, recorded]
  intro v going
  simp only [table, rev, clock, now, evaluation]
  obtain ⟨fresh, same⟩ | ⟨w, going', old, -, same⟩ := reevaluated_cases s
  · have inside := restartEvaluation_eq_none_iff.mp fresh v going
    rw [same]
    exact ⟨fun _ => going, fun ⟨i, p, mem, out⟩ => absurd (inside i p mem) out⟩
  · obtain rfl : w = v := Option.some.inj (going'.symm.trans going)
    rw [same]
    refine ⟨fun inside => ?_, fun _ => ⟨_, rfl, rfl, rfl, fun i p => mem_snapshotSets⟩⟩
    simp only [Evaluation.outdated, List.any_eq_true, Bool.not_eq_true', List.contains_eq_mem, decide_eq_false_iff_not] at old
    obtain ⟨i, -, p, mem, out⟩ := old
    exact absurd (inside i p mem) out

/-! ## The hold on the acknowledgement of a SOFT_RESET (R166) -/

/-- In CONFIG the front stays still when the agent, that held an acknowledgement, becomes idle: it was not the agent that kept it
still. -/
theorem frontStill_unheld {s : State} (q : s.frontStill) (config : s.mdc.mode = .config)
    (held : s.rtq.responseHeld = true) : State.frontStill { s with rtq.responseHeld := false, mga := .idle } := by
  obtain quiet | ⟨-, unheld⟩ | head | ⟨run, -⟩ := q
  · exact .inl quiet
  · rw [held] at unheld
    cases unheld
  · exact .inr (.inr (.inl head))
  · rw [config] at run
    cases run

/-- In CONFIG the event that leaves nothing in flight and nothing pending ends the hold, and the acknowledgement is on its way. -/
theorem settled_endHold {s : State} {f : Frame} (q : s.frontStill) (empty : ∀ i : Elem, s.csd.pending[i] = none)
    (rest : s.csd.anyInFlight = false) (config : s.mdc.mode = .config) (held : s.rtq.responseHeld = true)
    (response : s.rtq.response = some f) :
    (settled s).rtq.responseHeld = false ∧ (settled s).mga = .idle ∧ (settled s).answered f := by
  obtain ⟨m, r, left, reaches, h⟩ := settle_rested q empty (n := Config.settleFuel) (by decide)
  obtain ⟨-, -, -, rtq, -, -, -, mdc, pulses, -⟩ := h.frame
  obtain ⟨m, rfl⟩ : ∃ j, m = j + 1 := ⟨m - 1, by unfold Config.settleFuel at left; omega⟩
  have rest' : r.csd.anyInFlight = false := by
    rw [anyInFlight_eq_false_iff] at rest ⊢
    rw [pulses]
    exact rest
  have incomplete : safeComplete r = false := by simp [safeComplete, mdc, config]
  have reacts : react r = some { r with rtq.responseHeld := false, mga := .idle } := by
    rw [h.react_eq]
    simp [completeSafe, incomplete, endHold, rtq, held, rest']
  have still := frontStill_unheld h.still (by rw [mdc, config]) (by rw [rtq, held])
  have k := (settle_kept m _ still).1
  have ends : settled s = settle m { r with rtq.responseHeld := false, mga := .idle } := by
    rw [settled, reaches, settle, reacts]
  rw [ends]
  exact ⟨k.unheld rfl, k.agentIdle rfl, k.answers rfl f (.inr (.inl (by simp [rtq, response])))⟩

/-! ## The completion of the safe drive (R121) -/

/-- A completed safe drive with no redrive mark leads to SAFE_HELD. -/
theorem settle_held {s : State} (q : s.frontStill) (empty : ∀ i : Elem, s.csd.pending[i] = none)
    (complete : safeComplete s = true) (unmarked : s.mdc.redrive = false) {n : Nat} (fuel : 5 ≤ n) :
    (settle n s).mdc.mode = .safe .held ∧ (settle n s).mdc.redrive = false := by
  obtain ⟨m, r, left, reaches, h⟩ := settle_rested q empty (n := n) (by omega)
  obtain ⟨-, -, -, -, -, -, -, mdc, -⟩ := h.frame
  obtain ⟨m, rfl⟩ : ∃ j, m = j + 1 := ⟨m - 1, by omega⟩
  have complete' : safeComplete r = true := h.safeComplete_eq.trans complete
  have reacts : react r = some (setMode (.safe .held) r) := by
    rw [h.react_eq]
    simp [completeSafe, complete', mdc, unmarked]
  have k := (settle_kept m _ ((react_kept h.still reacts).still h.still)).2
  have mode : (setMode (.safe .held) r).mdc.mode = .safe .held := rfl
  have same := (k.handed (by simp [safeComplete, mode])).2.1
  rw [reaches, settle, reacts, same]
  exact ⟨mode, by simp [mdc, unmarked]⟩

/-- The elements of a safe drive depend on the tables, the pulses and the recorded positions alone (R120). -/
theorem safeTargets_congr {s t : State} (tbs : t.tbs = s.tbs) (pulses : t.csd.pulses = s.csd.pulses)
    (recorded : t.csd.recorded = s.csd.recorded) : safeTargets t = safeTargets s := by
  unfold safeTargets Csd.destination
  rw [tbs, pulses, recorded]

/-- An open safe drive keeps the Mode Controller's record of it (R121). -/
theorem safeComplete_of_outstanding {s : State} {i : Elem} {q : Pos} (outstanding : s.mdc.outstanding[i] = some q) :
    safeComplete s = false := by
  have moves : s.mdc.outstanding.isEmpty = false := by
    rw [← Bool.not_eq_true, Targets.isEmpty_iff]
    intro empty
    rw [empty i] at outstanding
    cases outstanding
  simp [safeComplete, moves]

theorem anyInFlight_congr {c d : Csd} (pulses : d.pulses = c.pulses) : d.anyInFlight = c.anyInFlight := by
  unfold Csd.anyInFlight Csd.inTransit
  rw [pulses]

/-- A safe drive that has just been formed is complete when it has nothing to drive and nothing moves or is owed (R121). -/
theorem safeComplete_formed (s : State) : safeComplete (formSafeDrive s) =
    (s.mdc.mode == .safe .driving && (safeTargets s).isEmpty && !s.csd.anyInFlight && s.csd.latchEmpty) := by
  have mdc : (formSafeDrive s).mdc = { s.mdc with outstanding := safeTargets s } := rfl
  have latch : (formSafeDrive s).csd.latch = s.csd.latch := by simp [formSafeDrive, handIn]
  have pulses : (formSafeDrive s).csd.pulses = s.csd.pulses := by simp [formSafeDrive, handIn]
  unfold safeComplete Csd.latchEmpty
  rw [mdc, latch, anyInFlight_congr pulses]

/-- An element that a drive leaves out is not handed in (R67). -/
theorem handIn_pending_none {d : Drive} {x : Targets} {s : State} {i : Elem} (out : x[i] = none) :
    (handIn d x s).csd.pending[i] = none := by
  simp only [handIn, Vector.getElem_ofFn, Fin.getElem_fin]
  split
  · exact out
  · rfl

theorem formSafeDrive_mdc (s : State) : (formSafeDrive s).mdc = { s.mdc with outstanding := safeTargets s } := rfl

/-- The state without the redrive mark (R121). -/
def State.unmarked (s : State) : State := { s with mdc.redrive := false }

/-- A completed safe drive under the redrive mark is formed afresh, and where that leaves nothing to drive leads to SAFE_HELD. -/
theorem settled_redriven {s : State} (q : s.frontStill) (empty : ∀ i : Elem, s.csd.pending[i] = none)
    (complete : safeComplete s = true) (marked : s.mdc.redrive = true) : (settled s).mdc.redrive = false ∧
      ((∀ j : Elem, (safeTargets s)[j] = none) → (settled s).mdc.mode = .safe .held) ∧
      ∀ (j : Elem) (p : Pos), (safeTargets s)[j] = some p →
        (settled s).mdc.mode = .safe .driving ∧ (settled s).mdc.outstanding[j] = some p := by
  obtain ⟨m, r, left, reaches, h⟩ := settle_rested q empty (n := Config.settleFuel) (by decide)
  obtain ⟨-, -, -, -, -, tbs, -, mdc, pulses, recorded, -⟩ := h.frame
  obtain ⟨m, rfl⟩ : ∃ j, m = j + 1 := ⟨m - 1, by unfold Config.settleFuel at left; omega⟩
  have complete' : safeComplete r = true := h.safeComplete_eq.trans complete
  have reacts : react r = some (formSafeDrive r.unmarked) := by
    rw [h.react_eq]
    simp [completeSafe, complete', mdc, marked, State.unmarked]
  have still := (react_kept h.still reacts).still h.still
  have ends : settled s = settle m (formSafeDrive r.unmarked) := by
    rw [settled, reaches, settle, reacts]
  have unmarked : r.unmarked.mdc = { r.mdc with redrive := false } ∧ r.unmarked.csd = r.csd := ⟨rfl, rfl⟩
  have targets : safeTargets r.unmarked = safeTargets s := safeTargets_congr tbs pulses recorded
  have formed := formSafeDrive_mdc r.unmarked
  have coil := safeComplete_formed r.unmarked
  generalize r.unmarked = w at still ends unmarked targets formed coil
  rw [targets, unmarked.1] at formed
  simp only [safeComplete, Bool.and_eq_true] at complete'
  obtain ⟨⟨⟨mode, -⟩, rest⟩, latch⟩ := complete'
  rw [targets, unmarked.1, unmarked.2, mode, rest, latch] at coil
  simp only [Bool.true_and, Bool.and_true] at coil
  rw [ends]
  by_cases rests : ∀ j : Elem, (safeTargets s)[j] = none
  · have pending : ∀ j : Elem, (formSafeDrive w).csd.pending[j] = none := fun j =>
      handIn_pending_none (by rw [targets, rests j])
    obtain ⟨mode, redrive⟩ := settle_held still pending (coil.trans (Targets.isEmpty_iff.mpr rests)) (by rw [formed])
      (n := m) (by unfold Config.settleFuel at left; omega)
    exact ⟨redrive, fun _ => mode, fun j p target => by rw [rests j] at target; cases target⟩
  · have incomplete : (safeTargets s).isEmpty = false := by rw [← Bool.not_eq_true, Targets.isEmpty_iff]; exact rests
    have same := ((settle_kept m _ still).2.handed (coil.trans incomplete)).2.1
    rw [same, formed]
    exact ⟨rfl, fun every => absurd every rests, fun j p target => ⟨beq_iff_eq.mp mode, target⟩⟩

end Sys2Proof.Machine
end

section
/-! PROOF. A landing outside ACTUATING: the drive of the pulse learns of it, and it may complete the safe drive or end the hold of a
SOFT_RESET's acknowledgement (R71, R86, R87, R121, R166; O25). -/

namespace Sys2Proof.Machine

/-! ## The recovery drive -/

theorem mem_insertBank {a b : Bank} {l : List Bank} : b ∈ insertBank a l ↔ b = a ∨ b ∈ l := by
  simp [insertBank, allBanks]

theorem mem_insertBanks {b : Bank} (l : List Bank) (r : List Bank) :
    b ∈ l.foldl (fun r a => insertBank a r) r ↔ b ∈ r ∨ b ∈ l := by
  induction l generalizing r with
  | nil => simp
  | cons a l ih => rw [List.foldl_cons, ih, mem_insertBank, List.mem_cons]; tauto

theorem mem_landedBanks {b : Bank} {l : List LatchEntry} :
    b ∈ landedBanks l ↔ ∃ x ∈ l, x.state = .landed ∧ bankOf x.elem = b := by
  simp [landedBanks, allBanks]

/-- The latch list after a landing of a recovery pulse (R86). -/
def latchAfter (e : Elem) (l : List LatchEntry) : List LatchEntry :=
  l.map (fun x => if x.elem = e ∧ x.state = .driving then { x with state := .landed } else x)

theorem landRecovery_inactive {s : State} (idle : s.csd.recoveryActive = false) (e : Elem) : landRecovery e s = s := by
  simp [landRecovery, idle]

/-- A landing that leaves an element of the recovery drive driving only marks its entry (R86). -/
theorem landRecovery_left {s : State} {e : Elem} (active : s.csd.recoveryActive = true)
    (left : ∃ x ∈ latchAfter e s.csd.latch, x.state = .driving) :
    landRecovery e s = { s with csd.latch := latchAfter e s.csd.latch } := by
  have driving : (latchAfter e s.csd.latch).any (fun x => x.state == .driving) = true := by simpa using left
  unfold latchAfter at driving ⊢
  simp only [landRecovery, active, if_true, completeRecovery, driving]

/-- The last landing of the recovery drive clears its mark and requests the forced verifies (R86, R87). -/
theorem landRecovery_last {s : State} {e : Elem} (active : s.csd.recoveryActive = true)
    (last : ¬∃ x ∈ latchAfter e s.csd.latch, x.state = .driving) :
    landRecovery e s = { s with
      csd.latch := latchAfter e s.csd.latch
      csd.recoveryActive := false
      vfu.requests := (landedBanks (latchAfter e s.csd.latch)).foldl (fun l b => insertBank b l) s.vfu.requests } := by
  have landed : (latchAfter e s.csd.latch).any (fun x => x.state == .driving) = false := by simpa using last
  unfold latchAfter at landed ⊢
  simp [landRecovery, active, completeRecovery, landed]

/-! ## What a landing leaves alone -/

section
variable (e : Elem) (k : Pulse) (s : State)

theorem landRecovery_pending : (landRecovery e s).csd.pending = s.csd.pending := by
  unfold landRecovery completeRecovery
  dsimp only
  repeat' split
  all_goals rfl

theorem landedState_stands : (landedState e k s).csd.pending = s.csd.pending ∧ (landedState e k s).rev = s.rev ∧
    (landedState e k s).tbs = s.tbs ∧ (landedState e k s).pending = s.pending ∧
    (landedState e k s).inReset = s.inReset := by
  unfold landedState landForDrive
  split <;> simp [landSafe, landPulse, landRecovery_pending]

theorem landedState_mdc : (landedState e k s).mdc =
    if k.drive = .safe then { s.mdc with outstanding := s.mdc.outstanding.set e none } else s.mdc := by
  unfold landedState landForDrive
  split <;> simp_all [landSafe, landPulse]

variable {e k s}

theorem landedState_frontStill (q : s.frontStill) : (landedState e k s).frontStill := by
  obtain ⟨-, -, -, latch⟩ := landedState_csd e k s
  exact frontStill_of_same (by simp) (by simp) (by simp) (by simp) (by simp) (by simp) (fun owed => by rwa [ne_eq, latch]) q

/-- Outside ACTUATING the engine does nothing about a landing (R56, R71). -/
theorem pulseLandEffect_outside (pulse : s.csd.pulses[e] = some k) (phase : k.phase = .settleTime)
    (outside : s.ste.st ≠ .actuating) : pulseLandEffect e s = landedState e k s := by
  rw [pulseLandEffect_eq pulse phase, landForEngine, if_neg (by simpa using outside)]

/-- A landing with nothing left in flight, outstanding or owed completes the safe drive (R121). -/
theorem landedState_safeComplete (alone : ∀ j : Elem, j ≠ e → s.csd.pulses[j] = none) (driving : s.mdc.mode = .safe .driving)
    (latch : s.csd.latch = []) (done : ∀ j : Elem, s.mdc.outstanding[j] = none ∨ (j = e ∧ k.drive = .safe)) :
    safeComplete (landedState e k s) = true := by
  have rest : (landedState e k s).csd.anyInFlight = false := (landedState_anyInFlight e k s).mpr alone
  obtain ⟨-, -, -, unlisted⟩ := landedState_csd e k s
  have owed : (landedState e k s).csd.latchEmpty = true := latchEmpty_iff.mpr (unlisted.mpr latch)
  have outstanding : (landedState e k s).mdc.outstanding.isEmpty = true := by
    rw [Targets.isEmpty_iff, landedState_mdc]
    intro j
    obtain none | ⟨rfl, safe⟩ := done j
    · split
      · by_cases same : e = j
        · simp [same]
        · simpa [Vector.getElem_set_ne, Fin.val_ne_of_ne same] using none
      · exact none
    · simp [safe]
  simp [safeComplete, driving, outstanding, rest, owed]

end

/-- What becomes of an evaluation depends on the evaluation and the step's targets alone. -/
theorem EvaluationFollows.congr {s t u : State} (evaluation : t.rev.evaluation = s.rev.evaluation)
    (changing : t.ste.changing = s.ste.changing) (h : EvaluationFollows t u) : EvaluationFollows s u := by
  unfold EvaluationFollows at *
  rwa [evaluation, changing] at h

/-! ## The obligation -/

/-- Settles O25: outside ACTUATING a landing's own effect is that on the position table and on the drive of its pulse; a launch pass that
finds nothing pending does not come between it and what it completes. -/
theorem landingRecordsTheTarget : Obligations.LandingRecordsTheTarget := by
  intro i p s running q pulse phase outside e latch left last
  obtain ⟨recorded, pulses, due, -⟩ := landedState_csd i p s
  obtain ⟨pending, rev, tbs, queue, reset⟩ := landedState_stands i p s
  have effect := pulseLandEffect_outside pulse phase outside
  have same : landedState i p s = landForDrive i p.drive e := rfl
  have still := landedState_frontStill (e := i) (k := p) q
  have own : KeptChain e (landedState i p s) := by
    refine .ofSame queue (by simp [e]) reset (by simp [e]) (by simp [e]) (by simp [e]) (by simp [e]) (by simp [e]) (by simp [e]) ?_
    rw [anyInFlight_congr (c := e.csd) pulses]
    exact id
  have after := settled_keptAfterPass still due
  have chain := own.trans (settled_kept _ still).1
  refine ⟨settled (landedState i p s), ?_, chain, by rw [effect]; exact after, fun run empty => ?_, ?_, fun n drive => ?_,
    fun drive => ?_, fun drive idle => ?_, fun drive active => ?_, fun ⟨alone, empty⟩ driving owed done => ?_, ?_⟩
  · rw [← effect]
    exact congrArg Host.Outcome.next (event_running _ running)
  · refine .congr (by rw [rev]) (by simp) (settled_follows still (by rw [pending]; exact empty) ?_)
    exact safeComplete_of_run (by simp [run])
  · rw [after.1.positions, recorded]
  · rw [drive] at same
    exact same ▸ after
  · rw [drive] at same
    exact same ▸ after
  · have same' : landedState i p s = e := by rw [same, drive]; exact landRecovery_inactive (s := e) idle i
    exact same' ▸ after
  · have recovers : landedState i p s = landRecovery i e := by rw [same, drive]; rfl
    obtain ⟨requests, -⟩ := after.1.demands
    obtain ⟨-, list, mark⟩ := after.1.recovery
    by_cases more : left
    · have same' : landedState i p s = { e with csd.latch := latch } := recovers.trans (landRecovery_left active more)
      rw [same'] at requests list mark after ⊢
      exact ⟨list, fun _ => ⟨mark.trans active, requests, after⟩, absurd more⟩
    · have same' := recovers.trans (landRecovery_last active more)
      rw [same'] at requests list mark ⊢
      refine ⟨list, fun l => absurd l more, fun _ => ⟨mark, fun b => ?_⟩⟩
      rw [requests, mem_insertBanks, mem_landedBanks]
      rfl
  · have complete := landedState_safeComplete (k := p) alone driving owed done
    have empty' : ∀ j : Elem, (landedState i p s).csd.pending[j] = none := by rw [pending]; exact empty
    have redrive : (landedState i p s).mdc.redrive = s.mdc.redrive := by
      rw [landedState_mdc]
      split <;> rfl
    refine ⟨fun unmarked => (settle_held still empty' complete (redrive.trans unmarked) (by decide)).1, fun marked => ?_⟩
    have targets : safeTargets (landedState i p s) = safeTargets e := safeTargets_congr tbs pulses recorded
    rw [← targets]
    exact settled_redriven still empty' complete (redrive.trans marked)
  · intro r f ⟨alone, empty⟩ _ config held serving response
    exact settled_endHold still (by rw [pending]; exact empty) ((landedState_anyInFlight i p s).mpr alone) (by simp [config])
      (by simp [held]) (by simp [response])

end Sys2Proof.Machine
end

section
/-! SUPPORT. What the loss of the coil supply does to the pulses in flight and to the supply latch list (R83, R84, R88). -/

namespace Sys2Proof.Machine

theorem getElem_set_fin {α : Type} {n : Nat} (v : Vector α n) (i j : Fin n) (x : α) :
    (v.set i x)[j] = if j = i then x else v[j] := by
  simp [Vector.getElem_set, Fin.ext_iff, eq_comm]

/-! ## One cut -/

section
variable (s : State) (e : Elem)

theorem cutPulse_of_none {s : State} {e : Elem} (rest : s.csd.pulses[e] = none) : cutPulse s e = s := by
  simp only [cutPulse, rest]

theorem cutPulse_pulses (i : Elem) : (cutPulse s e).csd.pulses[i] = if i = e then none else s.csd.pulses[i] := by
  unfold cutPulse
  split
  · next rest =>
    split
    · next same => rw [same, rest]
    · rfl
  · exact getElem_set_fin _ _ _ _

theorem cutPulse_recorded (i : Elem) : (cutPulse s e).csd.recorded[i] =
    if i = e ∧ s.csd.pulses[e] ≠ none then none else s.csd.recorded[i] := by
  unfold cutPulse
  split
  · next rest => simp [rest]
  · next p pulse => simp only [getElem_set_fin, pulse, ne_eq, reduceCtorEq, not_false_eq_true, and_true]

theorem isDriving_eq_false_iff {c : Csd} {i : Elem} :
    c.isDriving i = false ↔ ∀ p, c.pulses[i] = some p → p.phase ≠ .driving := by
  unfold Csd.isDriving
  cases c.pulses[i] <;> simp

theorem cutPulse_isDriving (i : Elem) : (cutPulse s e).csd.isDriving i = (decide (i ≠ e) && s.csd.isDriving i) := by
  unfold Csd.isDriving
  rw [cutPulse_pulses]
  by_cases same : i = e <;> simp [same]

theorem cutPulse_recovery_own {s : State} {e : Elem} {p : Pulse} (pulse : s.csd.pulses[e] = some p) (driving : p.phase = .driving) :
    (cutPulse s e).csd.recoveryUntil[bankOf e] = some (s.now + p.recovery) := by
  simp [cutPulse, pulse, driving]

theorem cutPulse_recovery_other {s : State} {e : Elem} {b : Bank} (free : bankOf e = b → s.csd.isDriving e = false) :
    (cutPulse s e).csd.recoveryUntil[b] = s.csd.recoveryUntil[b] := by
  unfold cutPulse
  split
  · rfl
  · next p pulse =>
    split
    · next driving =>
      have apart : b ≠ bankOf e := fun same => isDriving_eq_false_iff.mp (free same.symm) p pulse driving
      exact (getElem_set_fin _ _ _ _).trans (if_neg apart)
    · rfl

/-- A cut puts the entry of its element on the list (R84). -/
theorem mem_latchCut_own (q : Pos) (l : List LatchEntry) : { elem := e, target := q, state := .owed } ∈ latchCut e q l := by
  unfold latchCut
  split
  · next listed =>
    obtain ⟨x, mem, same⟩ := List.any_eq_true.mp listed
    exact List.mem_map.mpr ⟨x, mem, by simp [beq_iff_eq.mp same]⟩
  · simp

/-- A cut leaves the entries of the other elements (R84). -/
theorem mem_latchCut_other {e : Elem} {q : Pos} {l : List LatchEntry} {x : LatchEntry} (other : x.elem ≠ e) (mem : x ∈ l) :
    x ∈ latchCut e q l := by
  unfold latchCut
  split
  · exact List.mem_map.mpr ⟨x, mem, by simp [other]⟩
  · exact List.mem_append_left _ mem

theorem latchCut_ne_nil (q : Pos) (l : List LatchEntry) : latchCut e q l ≠ [] :=
  List.ne_nil_of_mem (mem_latchCut_own e q l)

theorem cutPulse_latch {s : State} {e : Elem} {p : Pulse} (pulse : s.csd.pulses[e] = some p) :
    (cutPulse s e).csd.latch = latchCut e p.target s.csd.latch := by
  simp [cutPulse, pulse]

theorem mem_cutPulse_latch {s : State} {e : Elem} {x : LatchEntry} (still : x.elem = e → s.csd.pulses[e] = none)
    (mem : x ∈ s.csd.latch) : x ∈ (cutPulse s e).csd.latch := by
  cases pulse : s.csd.pulses[e] with
  | none => rwa [cutPulse_of_none pulse]
  | some p =>
    rw [cutPulse_latch pulse]
    exact mem_latchCut_other (fun same => by rw [still same] at pulse; cases pulse) mem

end

/-! ## The cut of all -/

/-- What the cut of some elements' pulses leaves of the Coil Scheduler. -/
structure Cut (l : List Elem) (s t : State) : Prop where
  pulses : ∀ i : Elem, t.csd.pulses[i] = if i ∈ l then none else s.csd.pulses[i]
  recorded : ∀ i : Elem, t.csd.recorded[i] = if i ∈ l ∧ s.csd.pulses[i] ≠ none then none else s.csd.recorded[i]
  recovers : (∀ b, s.csd.oneDriver b) → ∀ i ∈ l, ∀ p, s.csd.pulses[i] = some p → p.phase = .driving →
    t.csd.recoveryUntil[bankOf i] = some (s.now + p.recovery)
  recovered : ∀ b : Bank, (∀ i ∈ l, bankOf i = b → s.csd.isDriving i = false) →
    t.csd.recoveryUntil[b] = s.csd.recoveryUntil[b]
  owed : ∀ i ∈ l, ∀ p, s.csd.pulses[i] = some p → { elem := i, target := p.target, state := .owed } ∈ t.csd.latch
  stays : ∀ x ∈ s.csd.latch, s.csd.pulses[x.elem] = none → x ∈ t.csd.latch
  listed : s.csd.latch ≠ [] → t.csd.latch ≠ []
  unlisted : (∀ i ∈ l, s.csd.pulses[i] = none) → t = s
  supply : t.csd.supply = s.csd.supply

theorem cut_cons {e : Elem} {l : List Elem} {s t : State} (h : Cut l (cutPulse s e) t) : Cut (e :: l) s t where
  pulses i := by
    rw [h.pulses, cutPulse_pulses]
    by_cases same : i = e <;> simp [same]
  recorded i := by
    rw [h.recorded, cutPulse_recorded, cutPulse_pulses]
    by_cases same : i = e
    · subst same
      simp
    · simp [same]
  recovers one i mem p pulse driving := by
    have drives : s.csd.isDriving i = true := by simp [Csd.isDriving, pulse, driving]
    by_cases same : i = e
    · subst same
      rw [h.recovered, cutPulse_recovery_own pulse driving]
      intro j _ bank
      rw [cutPulse_isDriving, ← Bool.not_eq_true, Bool.and_eq_true, decide_eq_true_iff]
      exact fun ⟨other, moves⟩ => other (one _ j i bank rfl moves drives)
    · have one' : ∀ b, (cutPulse s e).csd.oneDriver b := by
        intro b j k bj bk dj dk
        rw [cutPulse_isDriving, Bool.and_eq_true] at dj dk
        exact one b j k bj bk dj.2 dk.2
      have clock : (cutPulse s e).now = s.now := by simp
      rw [← clock]
      exact h.recovers one' i ((List.mem_cons.mp mem).resolve_left same) p (by rw [cutPulse_pulses, if_neg same]; exact pulse) driving
  recovered b free := by
    rw [h.recovered, cutPulse_recovery_other (free e List.mem_cons_self)]
    intro i mem bank
    rw [cutPulse_isDriving, free i (List.mem_cons_of_mem _ mem) bank, Bool.and_false]
  owed i mem p pulse := by
    by_cases same : i = e
    · subst same
      refine h.stays _ ?_ ((cutPulse_pulses s i i).trans (if_pos rfl))
      rw [cutPulse_latch pulse]
      exact mem_latchCut_own i _ _
    · exact h.owed i ((List.mem_cons.mp mem).resolve_left same) p (by rw [cutPulse_pulses, if_neg same]; exact pulse)
  stays x mem still := by
    refine h.stays x (mem_cutPulse_latch (fun same => same ▸ still) mem) ?_
    rw [cutPulse_pulses, still]
    exact ite_self none
  listed owed := by
    refine h.listed ?_
    cases pulse : s.csd.pulses[e] with
    | none => rwa [cutPulse_of_none pulse]
    | some p =>
      rw [cutPulse_latch pulse]
      exact latchCut_ne_nil e _ _
  unlisted rest := by
    have none := cutPulse_of_none (rest e List.mem_cons_self)
    rw [none] at h
    exact h.unlisted fun i mem => rest i (List.mem_cons_of_mem _ mem)
  supply := h.supply.trans (by unfold cutPulse; split <;> rfl)

theorem foldCut_cut (l : List Elem) (s : State) : Cut l s (l.foldl cutPulse s) := by
  induction l generalizing s with
  | nil =>
    constructor
    case stays => exact fun _ mem _ => mem
    all_goals simp
  | cons e l ih => exact cut_cons (ih (cutPulse s e))

/-! ## The list after the loss -/

theorem mem_returnToOwed_owed {x : LatchEntry} {l : List LatchEntry} (owed : x.state = .owed) (mem : x ∈ l) :
    x ∈ returnToOwed l :=
  List.mem_map.mpr ⟨x, mem, by simp [owed]⟩

theorem returnToOwed_not_driving {x : LatchEntry} {l : List LatchEntry} (mem : x ∈ returnToOwed l) : x.state ≠ .driving := by
  obtain ⟨y, -, rfl⟩ := List.mem_map.mp mem
  split
  · simp
  · assumption

theorem returnToOwed_eq_nil_iff {l : List LatchEntry} : returnToOwed l = [] ↔ l = [] := List.map_eq_nil_iff

/-- What the Coil Scheduler holds after the loss of the supply (R83, R84, R88). -/
structure SupplyCut (s t : State) : Prop where
  supply : t.csd.supply = .low
  pulses : ∀ i : Elem, t.csd.pulses[i] = none
  pending : ∀ i : Elem, t.csd.pending[i] = none
  recoveryActive : t.csd.recoveryActive = false
  recorded : ∀ i : Elem, t.csd.recorded[i] = if s.csd.pulses[i] = none then s.csd.recorded[i] else none
  recovers : (∀ b, s.csd.oneDriver b) → ∀ (i : Elem) (p : Pulse), s.csd.pulses[i] = some p → p.phase = .driving →
    t.csd.recoveryUntil[bankOf i] = some (s.now + p.recovery)
  recovered : ∀ b : Bank, (∀ i : Elem, bankOf i = b → s.csd.isDriving i = false) →
    t.csd.recoveryUntil[b] = s.csd.recoveryUntil[b]
  owed : ∀ (i : Elem) (p : Pulse), s.csd.pulses[i] = some p →
    { elem := i, target := p.target, state := .owed } ∈ t.csd.latch
  driving : ∀ x ∈ t.csd.latch, x.state ≠ .driving
  listed : t.csd.latch = [] ↔ s.csd.latch = [] ∧ s.csd.anyInFlight = false

theorem cutSupply_supplyCut (s : State) : SupplyCut s (cutSupply s) := by
  have cut := foldCut_cut allElems { s with csd.supply := .low }
  have all : ∀ i : Elem, i ∈ allElems := fun i => by simp [allElems]
  unfold cutSupply
  dsimp only
  generalize allElems.foldl cutPulse { s with csd.supply := .low } = t at cut
  have owed : ∀ (i : Elem) (p : Pulse), s.csd.pulses[i] = some p →
      { elem := i, target := p.target, state := .owed } ∈ returnToOwed t.csd.latch := fun i p pulse =>
    mem_returnToOwed_owed rfl (cut.owed i (all i) p pulse)
  constructor
  case supply => exact cut.supply
  case pulses => exact fun i => (cut.pulses i).trans (if_pos (all i))
  case pending => simp [cancelPending, Targets.none]
  case recoveryActive => rfl
  case recorded =>
    intro i
    refine (cut.recorded i).trans ?_
    by_cases rest : s.csd.pulses[i] = none <;> simp [rest, all i]
  case recovers => exact fun one i p => cut.recovers one i (all i) p
  case recovered => exact fun b free => cut.recovered b fun i _ => free i
  case owed => exact owed
  case driving => exact fun x => returnToOwed_not_driving
  case listed =>
    rw [anyInFlight_eq_false_iff]
    refine returnToOwed_eq_nil_iff.trans ⟨fun empty => ⟨?_, fun i => ?_⟩, fun ⟨empty, rest⟩ => ?_⟩
    · exact by_contra fun listed => cut.listed listed empty
    · cases pulse : s.csd.pulses[i] with
      | none => rfl
      | some p =>
        have mem := cut.owed i (all i) p pulse
        rw [empty] at mem
        cases mem
    · rw [cut.unlisted fun i _ => rest i]
      exact empty

end Sys2Proof.Machine
end

section
/-! PROOF. The loss of the coil supply cuts every pulse and fails a step in MUTING or ACTUATING (R54, R55, R83, R84, R88, R170; O29). -/

namespace Sys2Proof.Machine

/-! ## The Event Unit and the Step Engine -/

theorem signal_vcoilLow_trips (s : State) : (signal .vcoilLow s).mdc.trips =
    s.mdc.trips ++ (if s.tbs.runtime.tripMask.getLsbD 6 = true then [.vcoilLow] else []) := by
  have mask : (latchFlag .vcoilLow s).tbs.runtime.tripMask = s.tbs.runtime.tripMask := by simp
  unfold signal requestTripOf
  dsimp only [Flag.trip]
  rw [mask]
  split <;> simp [requestTrip]

/-- The end of a step keeps what is latched and what the agent holds. -/
theorem endStep_keeps (o : StepOutcome) (s : State) :
    (∀ f, s.isLatched f = true → (endStep o s).isLatched f = true) ∧
      (endStep o s).rtq.responseHeld = s.rtq.responseHeld ∧ (endStep o s).rtq.response = s.rtq.response := by
  obtain ⟨-, -, -, -, -, -, -, -, rtq, -⟩ := finishStep_marks o (endingAt o s)
  rw [endStep_eq_finish, rtq]
  refine ⟨fun f latched => ?_, (endingAt_rtq o s).2.1, ?_⟩
  · have ending : (recordOutcome o s).isLatched f = true := by
      unfold recordOutcome
      split
      · exact signal_flags _ _ _ latched
      · exact latched
    simpa [State.isLatched, endingAt] using ending
  · unfold endingAt recordOutcome
    split <;> simp [markEnd]

theorem supplyLowForEngine_ends {s : State} (ends : s.ste.st = .muting ∨ s.ste.st = .actuating) :
    supplyLowForEngine s = endStep .failedSupply s := by
  unfold supplyLowForEngine
  rcases ends with ends | ends <;> simp [ends]

theorem supplyLowForEngine_other {s : State} (other : ¬(s.ste.st = .muting ∨ s.ste.st = .actuating)) :
    supplyLowForEngine s = s := by
  unfold supplyLowForEngine
  split
  · next muting => exact absurd (.inl muting) other
  · next actuating => exact absurd (.inr actuating) other
  · rfl

/-- The engine's part of the loss changes no mode, unlatches no flag and leaves the agent's acknowledgement. -/
theorem supplyLowForEngine_keeps (s : State) : (supplyLowForEngine s).mdc = s.mdc ∧
    (∀ f, s.isLatched f = true → (supplyLowForEngine s).isLatched f = true) ∧
      (supplyLowForEngine s).rtq.responseHeld = s.rtq.responseHeld ∧
      (supplyLowForEngine s).rtq.response = s.rtq.response := by
  by_cases ends : s.ste.st = .muting ∨ s.ste.st = .actuating
  · rw [supplyLowForEngine_ends ends]
    exact ⟨(endStep_control _ _).1, endStep_keeps _ _⟩
  · rw [supplyLowForEngine_other ends]
    exact ⟨rfl, fun _ => id, rfl, rfl⟩

/-- The loss keeps a front still: a step frame that waits goes on waiting where an element is owed (R49). -/
theorem supplyLowForEngine_frontStill {s : State} (q : s.frontStill)
    (ends : s.ste.st = .muting ∨ s.ste.st = .actuating → s.frontFirm ∨ (s.stepWaits ∧ s.csd.latch ≠ [])) :
    (supplyLowForEngine s).frontStill := by
  by_cases fails : s.ste.st = .muting ∨ s.ste.st = .actuating
  · rw [supplyLowForEngine_ends fails]
    obtain firm | ⟨⟨run, addressed, x, l, head, waiting, step, -⟩, owed⟩ := ends fails
    · exact (endStep_frontFirm _ firm).still
    · refine .inr (.inr (.inr ⟨?_, ?_, x, l, ?_, waiting, step, .inl (by simpa using owed)⟩))
      · rw [(endStep_control _ _).1, run]
      · simpa [endStep_eq_finish, Lnk.transparent] using addressed
      · rw [endStep_queue (by simp [head, waiting]), head]
  · rwa [supplyLowForEngine_other fails]

/-- What an unsettled ending leaves does not depend on the Coil Scheduler. -/
theorem Ended.recoiled {e u : State} {o : StepOutcome} (unsettled : o.isSettled = false) (c : Csd) (h : Ended e o u) :
    Ended { e with csd := c } o u :=
  have none : o.isSettled = true → False := by simp [unsettled]
  { h with
    unsettled := fun i ident loud unsettled =>
      let ⟨routes, report⟩ := h.unsettled i ident loud unsettled
      ⟨routes, report.onItsWay, report.placed, report.waits⟩
    listless := fun _ _ _ _ settled => (none settled).elim
    requested := fun _ _ _ _ settled => (none settled).elim }

/-! ## The effect of the loss -/

/-- The state in which the Step Engine learns of the loss. -/
def supplyLost (time : Nat) (s : State) : State := signal .vcoilLow (cutSupply (s.advance time))

section
variable (time : Nat) (s : State)

theorem supplyLost_frame : (supplyLost time s).now = max s.now time ∧ (supplyLost time s).lnk = s.lnk ∧
    (supplyLost time s).fwq = s.fwq ∧ (supplyLost time s).mga = s.mga ∧ (supplyLost time s).tbs = s.tbs ∧
    (supplyLost time s).rev = s.rev ∧ (supplyLost time s).ste = s.ste ∧ (supplyLost time s).mdc.mode = s.mdc.mode ∧
    (supplyLost time s).mdc.outstanding = s.mdc.outstanding ∧ (supplyLost time s).rtq.queue = s.rtq.queue ∧
    (supplyLost time s).rtq.report = s.rtq.report ∧ (supplyLost time s).rtq.echo = s.rtq.echo ∧
    (supplyLost time s).rtq.responseHeld = s.rtq.responseHeld ∧ (supplyLost time s).rtq.response = s.rtq.response := by
  simp [supplyLost]

theorem supplyLost_cut : SupplyCut (s.advance time) (supplyLost time s) := by
  obtain ⟨supply, pulses, pending, active, recorded, recovers, recovered, owed, driving, listed⟩ :=
    cutSupply_supplyCut (s.advance time)
  have csd : (supplyLost time s).csd = (cutSupply (s.advance time)).csd := by simp [supplyLost]
  rw [← csd] at supply pulses pending active recorded recovers recovered owed driving listed
  exact ⟨supply, pulses, pending, active, recorded, recovers, recovered, owed, driving, listed⟩

variable {s}

theorem supplyLost_rest : (supplyLost time s).csd.anyInFlight = false :=
  anyInFlight_eq_false_iff.mpr (supplyLost_cut time s).pulses

/-- The loss completes no safe drive: a pulse that it cuts is owed (R84, R121). -/
theorem supplyLost_incomplete (c : s.calm ∨ s.mdc.mode ≠ .safe .driving) : safeComplete (supplyLost time s) = false := by
  obtain ⟨-, -, -, -, -, -, -, mode, outstanding, -⟩ := supplyLost_frame time s
  rw [← Bool.not_eq_true]
  intro complete
  simp only [safeComplete, mode, outstanding, Bool.and_eq_true, beq_iff_eq, Bool.not_eq_true'] at complete
  obtain ⟨⟨⟨driving, done⟩, -⟩, owed⟩ := complete
  obtain ⟨latch, rest⟩ := (supplyLost_cut time s).listed.mp (latchEmpty_iff.mp owed)
  have rest : s.csd.anyInFlight = false := rest
  have latch : s.csd.latchEmpty = true := latchEmpty_iff.mpr latch
  rcases c with ⟨-, incomplete⟩ | other
  · simp [safeComplete, driving, done, rest, latch] at incomplete
  · exact other driving

theorem supplyLost_frontStill (q : s.frontStill) (ends : s.ste.st = .muting ∨ s.ste.st = .actuating →
    s.frontFirm ∨ (s.stepWaits ∧ (s.csd.latch ≠ [] ∨ s.csd.anyInFlight = true))) :
    (supplyLowForEngine (supplyLost time s)).frontStill := by
  obtain ⟨-, lnk, fwq, mga, -, -, ste, mode, -, queue, report, -, held, -⟩ := supplyLost_frame time s
  have listed := (supplyLost_cut time s).listed
  have same : SameFront s (supplyLost time s) := ⟨by rw [fwq], by rw [lnk], mga, held⟩
  have grows : s.csd.latch ≠ [] → (supplyLost time s).csd.latch ≠ [] := fun owed empty => owed (listed.mp empty).1
  have waits : s.stepWaits → (supplyLost time s).stepWaits :=
    same.stepWaits mode (by rw [lnk]) fun f =>
      stepBarred_of_same (by simp [ste]) grows (reportBarred_of_same queue (by rw [lnk]) report)
  refine supplyLowForEngine_frontStill (same.frontStill waits q) fun fails => ?_
  rw [ste] at fails
  refine (ends fails).imp same.frontFirm fun ⟨waiting, owed⟩ => ⟨waits waiting, fun empty => ?_⟩
  obtain ⟨unlisted, rest⟩ := listed.mp empty
  rcases owed with owed | moves
  · exact owed unlisted
  · exact absurd (rest.symm.trans moves) Bool.false_ne_true

end

/-! ## The obligation -/

/-- Settles O29: the loss leaves nothing pending and nothing in flight, so that its launch pass moves nothing, and its consequences are
those of the Event Unit, of the engine's ending and of the evaluation. -/
theorem supplyLossCutsEveryPulse : Obligations.SupplyLossCutsEveryPulse := by
  intro time s running q good one firm
  obtain ⟨now, lnk, fwq, mga, tbs, rev, ste, mode, -, queue, report, echo, held, response⟩ := supplyLost_frame time s
  have cut := supplyLost_cut time s
  have still := supplyLost_frontStill time q firm
  obtain ⟨mdc, flags, held', response'⟩ := supplyLowForEngine_keeps (supplyLost time s)
  have csd : (supplyLowForEngine (supplyLost time s)).csd = (supplyLost time s).csd := by simp
  have effect : supplyLowEffect time s = supplyLowForEngine (supplyLost time s) := by simp [supplyLowEffect, good, supplyLost]
  have coil : safeComplete (supplyLowForEngine (supplyLost time s)) = safeComplete (supplyLost time s) :=
    safeComplete_of_same (by rw [mdc]) (by rw [mdc]) csd
  have k := settled_kept _ still
  refine ⟨_, congrArg Host.Outcome.next ((event_running _ running).trans (congrArg settled effect)), ?_⟩
  have pending : ∀ i : Elem, (supplyLowForEngine (supplyLost time s)).csd.pending[i] = none := by rw [csd]; exact cut.pending
  have follows := settled_follows still pending
  have ends := fun f => settled_endHold (f := f) still pending (by rw [csd]; exact supplyLost_rest time)
  generalize settled (supplyLowForEngine (supplyLost time s)) = u at k follows ends
  obtain ⟨until', list, active⟩ := k.2.recovery
  rw [csd] at until' list active
  refine ⟨?_, fun i => ?_, fun i => ?_, fun i p pulse => ⟨?_, fun driving => ?_⟩, fun b free => ?_, ?_, ?_, fun c i => ?_, ?_, ?_,
    fun fails => ?_, fun run checking => ?_, fun r f config holds _ answer => ?_⟩
  · rw [k.2.supply, csd]
    exact cut.supply
  · cases pulse : u.csd.pulses[i] with
    | none => rfl
    | some p =>
      have rest : (supplyLowForEngine (supplyLost time s)).csd.pulses[i] = none := by rw [csd]; exact cut.pulses i
      obtain ⟨-, supplied, -⟩ := k.2.launches i p pulse (by rw [rest]; simp)
      rw [csd, cut.supply] at supplied
      cases supplied
  · rw [k.2.positions, csd]
    exact cut.recorded i
  · rw [list]
    exact cut.owed i p pulse
  · rw [until']
    exact cut.recovers one i p pulse driving
  · rw [until']
    exact cut.recovered b free
  · rw [list]
    exact cut.driving
  · rw [active]
    exact cut.recoveryActive
  · obtain ⟨-, -, still⟩ := k.2.handed (coil.trans (supplyLost_incomplete time c))
    rcases still i with same | ⟨launched, -⟩
    · exact same.trans (pending i)
    · exact launched
  · exact k.2.flags _ (flags _ (signal_isLatched _ _))
  · rw [k.2.requests.1, mdc]
    refine (signal_vcoilLow_trips _).trans ?_
    simp
  · rw [← ste] at fails
    rw [supplyLowForEngine_ends fails] at k
    have same : SameStep (s.advance time) { supplyLost time s with csd := s.csd } :=
      ⟨now, by dsimp only; rw [ste]; rfl, congrArg _ rev, by rw [lnk]; exact ⟨rfl, rfl⟩, ⟨queue, report⟩, tbs, rfl⟩
    exact ((ended_of_kept (by decide) k).recoiled rfl s.csd).congr same (.inr ⟨congrArg _ fwq, by rw [lnk]; rfl, echo⟩)
  · have stays : supplyLowForEngine (supplyLost time s) = supplyLost time s :=
      supplyLowForEngine_other (by simp [ste, checking])
    refine .congr (by rw [stays, rev]) (by rw [stays, ste]) (follows (safeComplete_of_run ?_))
    rw [stays, mode, run]
  · exact ends f (by rw [mdc, mode, config]) (by rw [held', held, holds]) (by rw [response', response, answer])

end Sys2Proof.Machine
end

section
/-! PROOF. The return of the coil supply acts by the mode, and a launch pass follows (R73, R85, R86, R126, R127; O30). -/

namespace Sys2Proof.Machine

/-! ## What the return leaves alone -/

theorem handIn_csd (d : Drive) (x : Targets) (s : State) : (handIn d x s).csd.pulses = s.csd.pulses ∧
    (handIn d x s).csd.recorded = s.csd.recorded ∧ (handIn d x s).csd.latch = s.csd.latch ∧
    (handIn d x s).csd.recoveryActive = s.csd.recoveryActive ∧ (handIn d x s).csd.supply = s.csd.supply ∧
    (handIn d x s).csd.passDue = true := by
  simp [handIn]

/-- A target handed in for an element of a present class is pending (R67). -/
theorem handIn_pending {d : Drive} {x : Targets} {s : State} {i : Elem} (fitted : (s.tbs.classOf i).isSome) :
    (handIn d x s).csd.pending[i] = x[i] := by
  simp [handIn, fitted]

theorem formSafeDrive_csd (s : State) : (formSafeDrive s).csd.pulses = s.csd.pulses ∧
    (formSafeDrive s).csd.recorded = s.csd.recorded ∧ (formSafeDrive s).csd.latch = s.csd.latch ∧
    (formSafeDrive s).csd.recoveryActive = s.csd.recoveryActive ∧ (formSafeDrive s).csd.supply = s.csd.supply ∧
    (formSafeDrive s).csd.passDue = true :=
  handIn_csd _ _ _

/-- A redrive is a safe drive, and where it moves something SAFE_DRIVING (R122). -/
theorem redriveSafe_eq (s : State) : redriveSafe s =
    if (safeTargets s).isEmpty then formSafeDrive s.unmarked else setMode (.safe .driving) (formSafeDrive s.unmarked) := by
  have targets : safeTargets s.unmarked = safeTargets s := safeTargets_congr rfl rfl rfl
  have outstanding : (formSafeDrive s.unmarked).mdc.outstanding = safeTargets s := by rw [formSafeDrive_mdc, targets]
  rw [← outstanding]
  rfl

theorem redriveSafe_csd (s : State) : (redriveSafe s).csd = (formSafeDrive s.unmarked).csd ∧
    ∃ a, (redriveSafe s).rtq = { s.rtq with alert := a } := by
  have rtq : (formSafeDrive s.unmarked).rtq = s.rtq := by simp [State.unmarked]
  rw [redriveSafe_eq]
  split
  · exact ⟨rfl, _, rtq⟩
  · obtain ⟨a, moded⟩ := setMode_eq (.safe .driving) (formSafeDrive s.unmarked)
    rw [moded]
    exact ⟨rfl, a, by rw [← rtq]⟩

/-! ## The recovery drive -/

/-- The latch list once its owed entries are driven (R86). -/
def latchDriven (l : List LatchEntry) : List LatchEntry :=
  l.map (fun x => if x.state = .owed then { x with state := .driving } else x)

theorem formRecovery_owed {s : State} (owed : ∃ x ∈ s.csd.latch, x.state = .owed) :
    formRecovery s = handIn .recovery (owedTargets s.csd.latch)
      { s with csd.recoveryActive := true, csd.latch := latchDriven s.csd.latch } := by
  have some_ : s.csd.latch.any (fun x => x.state == .owed) = true := by simpa using owed
  unfold formRecovery
  rw [if_pos some_]
  rfl

theorem formRecovery_none {s : State} (none : ¬∃ x ∈ s.csd.latch, x.state = .owed) :
    formRecovery s = s ∧ latchDriven s.csd.latch = s.csd.latch := by
  have empty : s.csd.latch.any (fun x => x.state == .owed) = false := by simpa using none
  refine ⟨by simp [formRecovery, empty], ?_⟩
  calc latchDriven s.csd.latch = s.csd.latch.map id :=
        List.map_congr_left fun x mem => if_neg fun owed => none ⟨x, mem, owed⟩
    _ = s.csd.latch := List.map_id _

theorem formRecovery_csd {s : State} (due : s.csd.passDue = true) : (formRecovery s).csd.pulses = s.csd.pulses ∧
    (formRecovery s).csd.recorded = s.csd.recorded ∧ (formRecovery s).csd.latch = latchDriven s.csd.latch ∧
    (formRecovery s).csd.supply = s.csd.supply ∧ (formRecovery s).csd.passDue = true := by
  by_cases owed : ∃ x ∈ s.csd.latch, x.state = .owed
  · rw [formRecovery_owed owed]
    obtain ⟨pulses, recorded, latch, -, supply, due⟩ := handIn_csd .recovery (owedTargets s.csd.latch)
      { s with csd.recoveryActive := true, csd.latch := latchDriven s.csd.latch }
    exact ⟨pulses, recorded, latch, supply, due⟩
  · obtain ⟨same, latch⟩ := formRecovery_none owed
    rw [same, latch]
    exact ⟨rfl, rfl, rfl, rfl, due⟩

/-- On a list with one entry for each element an owed entry's target is that of its element (R84, R86). -/
theorem owedTargets_of_mem {l : List LatchEntry} (nodup : (l.map (·.elem)).Nodup) {x : LatchEntry} (mem : x ∈ l)
    (owed : x.state = .owed) : (owedTargets l)[x.elem] = some x.target := by
  have finds : (l.find? (fun y => y.elem == x.elem && y.state == .owed)).isSome := by
    rw [List.find?_isSome]
    exact ⟨x, mem, by simp [owed]⟩
  obtain ⟨y, found⟩ := Option.isSome_iff_exists.mp finds
  have like := List.find?_some found
  rw [Bool.and_eq_true, beq_iff_eq] at like
  have same : y = x := List.inj_on_of_nodup_map nodup (List.mem_of_find?_eq_some found) mem like.1
  simp [owedTargets, found, same]

/-! ## The front and the chain -/

/-- An alert that is brought up to date changes nothing else on the chain side (R172). -/
theorem alert_keptChain (a : Option AlertFrame) (s : State) : KeptChain s { s with rtq.alert := a } := by
  constructor <;> simp [State.answered, State.reported, State.echoed]
  exact fun held serving _ _ => ⟨held, serving⟩

/-- The state with the supply back and a launch pass due (R85). -/
def State.supplied (s : State) : State := { s with csd.supply := .good, csd.passDue := true }

theorem returnSupply_rtq (s : State) : ∃ a, (returnSupply s).rtq = { s.rtq with alert := a } := by
  unfold returnSupply
  dsimp only
  split
  · exact ⟨s.rtq.alert, by simp⟩
  · exact (redriveSafe_csd _).2
  · exact ⟨_, rfl⟩
  · exact ⟨_, rfl⟩

theorem returnSupply_csd (s : State) : (returnSupply s).csd.pulses = s.csd.pulses ∧
    (returnSupply s).csd.recorded = s.csd.recorded ∧ (returnSupply s).csd.supply = .good ∧
    (returnSupply s).csd.passDue = true := by
  unfold returnSupply
  dsimp only
  split
  · obtain ⟨pulses, recorded, -, supply, due⟩ := formRecovery_csd (s := s.supplied) rfl
    exact ⟨pulses, recorded, supply, due⟩
  · rw [(redriveSafe_csd _).1]
    obtain ⟨pulses, recorded, -, -, supply, due⟩ :=
      formSafeDrive_csd (discardLatch s.supplied).unmarked
    exact ⟨pulses, recorded, supply, due⟩
  · exact ⟨rfl, rfl, rfl, rfl⟩
  · exact ⟨rfl, rfl, rfl, rfl⟩

theorem returnSupply_keptChain (s : State) : KeptChain s (returnSupply s) := by
  obtain ⟨pending, now, reset, -, lnk, fwq, mga, -, -, ste, -⟩ := returnSupply_frame s
  obtain ⟨a, rtq⟩ := returnSupply_rtq s
  have flights := anyInFlight_congr (returnSupply_csd s).1
  have own : KeptChain s { returnSupply s with rtq := s.rtq } :=
    .ofSame pending now reset lnk fwq rfl mga (by rw [ste]) (by rw [ste]) (by rw [flights]; exact id)
  have same : returnSupply s = { { returnSupply s with rtq := s.rtq } with rtq.alert := a } := by
    dsimp only
    rw [← rtq]
  rw [same]
  exact own.trans (alert_keptChain a _)

theorem returnSupply_run {s : State} (run : s.mdc.mode = .run) :
    returnSupply s = formRecovery s.supplied := by
  simp only [returnSupply, run, State.supplied]

theorem returnSupply_safe {s : State} {sub : SafeSub} (safe : s.mdc.mode = .safe sub) :
    returnSupply s = redriveSafe (discardLatch s.supplied) := by
  simp only [returnSupply, safe, State.supplied]

theorem returnSupply_rest {s : State} (rest : s.mdc.mode = .config ∨ ∃ o r, s.mdc.mode = .entry o r) : returnSupply s =
    { s with csd.supply := .good, csd.latch := [], csd.recoveryActive := false, csd.passDue := true } := by
  obtain config | ⟨o, r, entry⟩ := rest
  · simp only [returnSupply, config, discardLatch]
  · simp only [returnSupply, entry, discardLatch]

theorem returnSupply_frontStill {s : State} (q : s.frontStill) : (returnSupply s).frontStill := by
  obtain ⟨-, -, -, -, lnk, fwq, mga, -, -, ste, -⟩ := returnSupply_frame s
  obtain ⟨a, rtq⟩ := returnSupply_rtq s
  have same : SameFront s (returnSupply s) := ⟨by rw [fwq], by rw [lnk], mga, by rw [rtq]⟩
  refine same.frontStill (fun waits => ?_) q
  have run : s.mdc.mode = .run := waits.1
  have mode : (returnSupply s).mdc.mode = s.mdc.mode := by
    rw [returnSupply_run run]
    simp [State.supplied]
  refine same.stepWaits mode (by rw [lnk]) (fun f => ?_) waits
  refine stepBarred_of_same (by rw [ste]; exact ⟨rfl, rfl⟩) (fun owed => ?_)
    (reportBarred_of_same (by rw [rtq]) (by rw [lnk]) (by rw [rtq]))
  obtain ⟨-, -, list, -⟩ := formRecovery_csd (s := s.supplied) rfl
  rw [returnSupply_run run, list]
  simpa [latchDriven, State.supplied] using owed

/-! ## The obligation -/

/-- An element that is away from its safe target is one of the safe drive's (R120). -/
theorem safeTargets_of_away {s : State} {n : Fin 256} {p : PathRec} {i : Elem} (index : s.tbs.core.safeIndex = some n)
    (path : s.tbs.paths[n] = some p) (away : s.csd.destination i ≠ some p.targets[i]) :
    (safeTargets s)[i] = some p.targets[i] := by
  have chosen : s.tbs.core.safeIndex.bind (fun n => s.tbs.paths[n]) = some p := by rw [index]; exact path
  unfold safeTargets
  rw [chosen]
  simpa using away

/-- A redrive with an element to move is SAFE_DRIVING with that element outstanding (R121, R122). -/
theorem redriveSafe_drives {s : State} {i : Elem} {q : Pos} (target : (safeTargets s)[i] = some q) :
    (redriveSafe s).mdc.mode = .safe .driving ∧ (redriveSafe s).mdc.outstanding[i] = some q := by
  have moves : ¬(safeTargets s).isEmpty := fun empty => by rw [Targets.isEmpty_iff.mp empty i] at target; cases target
  have targets : safeTargets s.unmarked = safeTargets s := safeTargets_congr rfl rfl rfl
  obtain ⟨a, moded⟩ := setMode_eq (.safe .driving) (formSafeDrive s.unmarked)
  rw [redriveSafe_eq, if_neg moves, moded, ← target, ← targets]
  exact ⟨rfl, rfl⟩

/-- Settles O30: each mode's own effect is a recovery drive, a safe drive, or a list discarded, with a launch pass due. -/
theorem supplyReturnActsByMode : Obligations.SupplyReturnActsByMode := by
  intro time s running q low
  obtain ⟨pulses, recorded, supply, due⟩ := returnSupply_csd (s.advance time)
  have effect : supplyReturnEffect time s = returnSupply (s.advance time) := by simp [supplyReturnEffect, low]
  have front : (s.advance time).frontStill := frontStill_of_same (s := s) rfl rfl ⟨rfl, rfl, rfl⟩ rfl rfl rfl id q
  have still := returnSupply_frontStill front
  have after := settled_keptAfterPass still due
  have chain := (returnSupply_keptChain (s.advance time)).trans (settled_kept _ still).1
  refine ⟨_, congrArg Host.Outcome.next ((event_running _ running).trans (congrArg settled effect)), ?_, chain, ?_, after,
    fun run nodup => ?_, fun sub safe => ?_, fun rest => ?_⟩
  · rw [after.1.supply, supply]
  · rw [after.1.positions, recorded]
    rfl
  · have same := returnSupply_run (s := s.advance time) run
    generalize returnSupply (s.advance time) = t at same after
    obtain ⟨-, -, list, -⟩ := formRecovery_csd (s := (s.advance time).supplied) rfl
    rw [← same] at list
    have mode : t.mdc.mode = .run := by rw [same]; simpa [State.supplied] using run
    refine ⟨after.1.recovery.2.1.trans list, fun owed => ?_, fun x mem owed fitted => ?_⟩
    · rw [after.1.recovery.2.2, same, formRecovery_owed (s := (s.advance time).supplied) owed]
      obtain ⟨-, -, -, active, -⟩ := handIn_csd .recovery (owedTargets (s.advance time).supplied.csd.latch)
        { (s.advance time).supplied with
          csd.recoveryActive := true, csd.latch := latchDriven (s.advance time).supplied.csd.latch }
      exact active
    · refine after.1.driven (safeComplete_of_run mode) ?_
      rw [same, formRecovery_owed (s := (s.advance time).supplied) ⟨x, mem, owed⟩]
      rw [handIn_pending (by simpa [State.supplied] using fitted)]
      exact owedTargets_of_mem nodup mem owed
  · have same := returnSupply_safe (s := s.advance time) safe
    generalize returnSupply (s.advance time) = t at same after
    have list : t.csd.latch = [] ∧ t.csd.recoveryActive = false := by
      obtain ⟨-, -, latch, active, -⟩ := formSafeDrive_csd (discardLatch (s.advance time).supplied).unmarked
      rw [same, (redriveSafe_csd _).1, latch, active]
      exact ⟨rfl, rfl⟩
    refine ⟨after.1.recovery.2.1.trans list.1, after.1.recovery.2.2.trans list.2, fun n p i index path away => ?_⟩
    have mdc : t.mdc.mode = .safe .driving ∧ t.mdc.outstanding[i] = some p.targets[i] := by
      rw [same]
      exact redriveSafe_drives (safeTargets_of_away index path away)
    obtain ⟨-, stands, -⟩ := after.1.handed (safeComplete_of_outstanding mdc.2)
    rwa [stands]
  · rw [← returnSupply_rest (s := s.advance time) rest]
    exact after.1

end Sys2Proof.Machine
end

section
/-! SUPPORT. What an operation may do to the bounds of the part (R7, R9, R26, R79, R80, R97, R136, R148, R149, R177): each bound is kept
from itself alone. One lemma for each operation of the Event Unit, the Link Interface, the Coil Scheduler and the Verify Unit. -/

namespace Sys2Proof.Machine

/-! ## What each bound speaks of -/

theorem debtInRange_of_same {s t : State} (debt : t.vfu.debt = s.vfu.debt) (h : DebtInRange s) : DebtInRange t := by
  rwa [DebtInRange, debt]

theorem queuesBounded_of_same {s t : State} (forward : t.fwq.queue.length = s.fwq.queue.length)
    (back : t.rtq.queue.length = s.rtq.queue.length) (h : QueuesBounded s) : QueuesBounded t := by
  rwa [QueuesBounded, forward, back]

theorem countersBounded_of {s t : State} (checkA : s.lnk.a.checkErrors ≤ Config.counterCap → t.lnk.a.checkErrors ≤ Config.counterCap)
    (checkB : s.lnk.b.checkErrors ≤ Config.counterCap → t.lnk.b.checkErrors ≤ Config.counterCap)
    (fwdDrops : s.lnk.fwdDrops ≤ Config.counterCap → t.lnk.fwdDrops ≤ Config.counterCap)
    (retDrops : s.lnk.retDrops ≤ Config.counterCap → t.lnk.retDrops ≤ Config.counterCap)
    (urgentDrops : s.lnk.urgentDrops ≤ Config.counterCap → t.lnk.urgentDrops ≤ Config.counterCap)
    (endDiscards : s.lnk.endDiscards ≤ Config.counterCap → t.lnk.endDiscards ≤ Config.counterCap)
    (hot : s.evu.hotCount ≤ Config.counterCap → t.evu.hotCount ≤ Config.counterCap) (h : CountersBounded s) : CountersBounded t := by
  obtain ⟨ha, hb, hf, hr, hu, he, hh⟩ := h
  exact ⟨checkA ha, checkB hb, fwdDrops hf, retDrops hr, urgentDrops hu, endDiscards he, hot hh⟩

theorem wearBounded_of_same {s t : State} (wear : t.tbs.wear = s.tbs.wear) (h : WearBounded s) : WearBounded t := by
  rwa [WearBounded, wear]

theorem gridAscending_of_same {s t : State} (grid : t.tbs.grid = s.tbs.grid) (h : GridAscending s) : GridAscending t := by
  rwa [GridAscending, grid]

theorem linksSound_of_same {s t : State} (links : t.tbs.links = s.tbs.links) (h : LinksSound s.tbs) : LinksSound t.tbs := by
  rwa [LinksSound, links]

theorem unfittedStill_of_same {s t : State} (elements : t.tbs.elements = s.tbs.elements)
    (recorded : t.csd.recorded = s.csd.recorded) (pulses : t.csd.pulses = s.csd.pulses) (h : UnfittedStill s) :
    UnfittedStill t := by
  unfold UnfittedStill Csd.inTransit at *
  rwa [elements, recorded, pulses]

theorem marksAgree_of_same {s t : State} (forward : t.fwq.queue.length = s.fwq.queue.length)
    (back : t.rtq.queue.length = s.rtq.queue.length) (margin : t.lnk.margin = s.lnk.margin)
    (sentFwd : t.lnk.sentFwd = s.lnk.sentFwd) (sentRet : t.lnk.sentRet = s.lnk.sentRet) (h : MarksAgree s) : MarksAgree t := by
  unfold MarksAgree State.fwdFree State.retFree at *
  rwa [forward, back, margin, sentFwd, sentRet]

/-- From `s` to `t` every bound is kept. -/
structure KeepsBounds (s t : State) : Prop where
  debt : DebtInRange s → DebtInRange t
  queues : QueuesBounded s → QueuesBounded t
  counters : CountersBounded s → CountersBounded t
  wear : WearBounded s → WearBounded t
  grid : GridAscending s → GridAscending t
  links : LinksSound s.tbs → LinksSound t.tbs
  unfitted : UnfittedStill s → UnfittedStill t
  marks : MarksAgree s → MarksAgree t

theorem KeepsBounds.refl (s : State) : KeepsBounds s s := ⟨id, id, id, id, id, id, id, id⟩

theorem KeepsBounds.trans {s t u : State} (h : KeepsBounds s t) (g : KeepsBounds t u) : KeepsBounds s u :=
  ⟨g.debt ∘ h.debt, g.queues ∘ h.queues, g.counters ∘ h.counters, g.wear ∘ h.wear, g.grid ∘ h.grid, g.links ∘ h.links,
    g.unfitted ∘ h.unfitted, g.marks ∘ h.marks⟩

/-- What the bounds of the queues and of the flow marks speak of stands. -/
@[simp] def SameChain (s t : State) : Prop :=
  t.fwq.queue.length = s.fwq.queue.length ∧ t.rtq.queue.length = s.rtq.queue.length ∧ t.lnk.margin = s.lnk.margin ∧
    t.lnk.sentFwd = s.lnk.sentFwd ∧ t.lnk.sentRet = s.lnk.sentRet

/-- The 16-bit counters stand. -/
@[simp] def SameCounts (s t : State) : Prop :=
  t.lnk.a.checkErrors = s.lnk.a.checkErrors ∧ t.lnk.b.checkErrors = s.lnk.b.checkErrors ∧ t.lnk.fwdDrops = s.lnk.fwdDrops ∧
    t.lnk.retDrops = s.lnk.retDrops ∧ t.lnk.urgentDrops = s.lnk.urgentDrops ∧ t.lnk.endDiscards = s.lnk.endDiscards ∧
    t.evu.hotCount = s.evu.hotCount

/-- What the bounds of the debt, the tables and the positions speak of stands. -/
@[simp] def SameStores (s t : State) : Prop :=
  t.vfu.debt = s.vfu.debt ∧ t.tbs.wear = s.tbs.wear ∧ t.tbs.grid = s.tbs.grid ∧ t.tbs.links = s.tbs.links ∧
    t.tbs.elements = s.tbs.elements ∧ t.csd.recorded = s.csd.recorded ∧ t.csd.pulses = s.csd.pulses

/-- Where the tables, the positions and the debt stand, only the queues, the marks and the counters could pass their bounds. -/
theorem KeepsBounds.ofStores {s t : State} (stores : SameStores s t) (queues : QueuesBounded s → QueuesBounded t)
    (counters : CountersBounded s → CountersBounded t) (marks : MarksAgree s → MarksAgree t) : KeepsBounds s t := by
  obtain ⟨debt, wear, grid, links, elements, recorded, pulses⟩ := stores
  exact
    { debt := debtInRange_of_same debt
      queues := queues
      counters := counters
      wear := wearBounded_of_same wear
      grid := gridAscending_of_same grid
      links := linksSound_of_same links
      unfitted := unfittedStill_of_same elements recorded pulses
      marks := marks }

theorem KeepsBounds.ofCounters {s t : State} (same : SameChain s t ∧ SameStores s t)
    (counters : CountersBounded s → CountersBounded t) : KeepsBounds s t := by
  obtain ⟨⟨forward, back, margin, sentFwd, sentRet⟩, stores⟩ := same
  exact .ofStores stores (queuesBounded_of_same forward back) counters (marksAgree_of_same forward back margin sentFwd sentRet)

theorem countersBounded_of_same {s t : State} (counts : SameCounts s t) (h : CountersBounded s) : CountersBounded t := by
  obtain ⟨checkA, checkB, fwdDrops, retDrops, urgentDrops, endDiscards, hot⟩ := counts
  rwa [CountersBounded, checkA, checkB, fwdDrops, retDrops, urgentDrops, endDiscards, hot]

theorem KeepsBounds.ofQueues {s t : State} (same : SameCounts s t ∧ SameStores s t)
    (queues : QueuesBounded s → QueuesBounded t) (marks : MarksAgree s → MarksAgree t) : KeepsBounds s t :=
  .ofStores same.2 queues (countersBounded_of_same same.1) marks

/-- Where all that the bounds speak of stands, they are kept. -/
theorem KeepsBounds.ofSame {s t : State} (same : SameChain s t ∧ SameCounts s t ∧ SameStores s t) : KeepsBounds s t :=
  .ofCounters ⟨same.1, same.2.2⟩ (countersBounded_of_same same.2.1)

/-- A 16-bit counter stops at its last value (R149, R177). -/
@[simp] theorem countUp_le (n : Nat) : countUp n ≤ Config.counterCap := Nat.min_le_right _ _

/-! ## The Event Unit -/

theorem advance_bounds (s : State) (t : Nat) : KeepsBounds s (s.advance t) := .ofSame (by simp)

theorem chose_bounds (s : State) : KeepsBounds s s.chose := .ofSame (by simp)

theorem signal_bounds (f : Flag) (s : State) : KeepsBounds s (signal f s) := .ofSame (by simp)

theorem setMode_bounds (m : Mode) (s : State) : KeepsBounds s (setMode m s) := .ofSame (by simp)

theorem clearFlags_bounds (mask : BitVec 16) (s : State) : KeepsBounds s (clearFlags mask s) := .ofSame (by simp)

theorem readLevelConditions_bounds (s : State) : KeepsBounds s (readLevelConditions s) := .ofSame (by simp)

theorem requestTrip_bounds (c : TripCause) (s : State) : KeepsBounds s (requestTrip c s) := .ofSame (by simp)

theorem hotEvent_bounds (s : State) : KeepsBounds s (hotEvent s) :=
  .ofCounters (by simp) <| countersBounded_of (by simp) (by simp) (by simp) (by simp) (by simp) (by simp)
    fun _ => by rw [hotEvent_hotCount]; exact Nat.min_le_right _ _

/-! ## Flow marks (R148) -/

theorem marginEntries_pos (m : Margin) : 0 < marginEntries m := by
  cases m <;> decide

/-- GO is the mark of a queue with more entries free than the hold margin, PAUSE that of one with fewer than twice as many. -/
theorem nextMark_agrees (last : Mark) (free : Nat) {margin : Nat} (pos : 0 < margin) :
    (nextMark last free margin = .go → margin < free) ∧ (nextMark last free margin = .pause → free < 2 * margin) := by
  cases last <;> simp only [nextMark] <;> split <;> simp <;> omega

theorem compareFwd_sentFwd (s : State) :
    (compareFwd s).lnk.sentFwd = nextMark s.lnk.sentFwd s.fwdFree (marginEntries s.lnk.margin) := by
  unfold compareFwd
  dsimp only
  split
  · next same => exact same.symm
  · rfl

theorem compareRet_sentRet (s : State) :
    (compareRet s).lnk.sentRet = nextMark s.lnk.sentRet s.retFree (marginEntries s.lnk.margin) := by
  unfold compareRet
  dsimp only
  split
  · next same => exact same.symm
  · rfl

/-- After its comparison the Forward Queue's mark agrees, whatever the queue held before. -/
theorem compareFwd_marksAgree {s : State} {q : List FwdEntry} (h : MarksAgree s) :
    MarksAgree (compareFwd { s with fwq.queue := q }) := by
  have sent := compareFwd_sentFwd { s with fwq.queue := q }
  have agrees := nextMark_agrees s.lnk.sentFwd (Config.fwdCapacity - q.length) (marginEntries_pos s.lnk.margin)
  obtain ⟨-, -, go, pause⟩ := h
  unfold MarksAgree
  rw [sent]
  simpa [State.fwdFree, State.retFree] using ⟨agrees.1, agrees.2, go, pause⟩

theorem compareRet_marksAgree {s : State} {q : List RetEntry} (h : MarksAgree s) :
    MarksAgree (compareRet { s with rtq.queue := q }) := by
  have sent := compareRet_sentRet { s with rtq.queue := q }
  have agrees := nextMark_agrees s.lnk.sentRet (Config.retCapacity - q.length) (marginEntries_pos s.lnk.margin)
  obtain ⟨go, pause, -, -⟩ := h
  unfold MarksAgree
  rw [sent]
  simpa [State.fwdFree, State.retFree] using ⟨go, pause, agrees.1, agrees.2⟩

/-- The Forward Queue with other frames, within its capacity, and the comparison made. -/
theorem requeueFwd_bounds {s : State} {q : List FwdEntry} (fits : QueuesBounded s → q.length ≤ Config.fwdCapacity) :
    KeepsBounds s (compareFwd { s with fwq.queue := q }) :=
  .ofQueues (by simp) (fun h => ⟨by simpa using fits h, by simpa using h.2⟩) compareFwd_marksAgree

/-- The Return Queue with other frames, within its capacity, and the comparison made. -/
theorem requeueRet_bounds {s : State} {q : List RetEntry} (fits : QueuesBounded s → q.length ≤ Config.retCapacity) :
    KeepsBounds s (compareRet { s with rtq.queue := q }) :=
  .ofQueues (by simp) (fun h => ⟨by simpa using h.1, by simpa using fits h⟩) compareRet_marksAgree

/-! ## Admissions, departures and the chain end (R130, R137, R141 to R145) -/

theorem departFwd_bounds (s : State) : KeepsBounds s (departFwd s) :=
  requeueFwd_bounds fun h => (List.tail_sublist _).length_le.trans h.1

theorem departRet_bounds (s : State) : KeepsBounds s (departRet s) :=
  requeueRet_bounds fun h => (List.tail_sublist _).length_le.trans h.2

theorem appendRet_bounds (f : Frame) (own : Bool) {s : State} (room : s.rtq.queue.length < Config.retCapacity) :
    KeepsBounds s (appendRet f own s) :=
  requeueRet_bounds fun _ => by simpa using room

/-- A new head stands in the old one's place; an empty queue has room for it, under the margin too. -/
theorem setHead_bounds (x : FwdEntry) (s : State) : KeepsBounds s (setHead x s) := by
  cases queue : s.fwq.queue with
  | cons y l =>
    have same : (setHead x s).fwq.queue.length = s.fwq.queue.length := by simp [queue]
    exact .ofQueues (by simp) (queuesBounded_of_same same (by simp))
      (marksAgree_of_same same (by simp) (by simp) (by simp) (by simp))
  | nil =>
    have alone : (setHead x s).fwq.queue.length = 1 := by simp [queue]
    have small : 0 < marginEntries s.lnk.margin ∧ marginEntries s.lnk.margin ≤ 8 := by cases s.lnk.margin <;> decide
    refine .ofQueues (by simp) (fun h => ⟨by rw [alone]; decide, by simpa using h.2⟩) fun h => ?_
    unfold MarksAgree State.fwdFree State.retFree at *
    rw [alone]
    simp only [queue, List.length_nil, Config.fwdCapacity, setHead_frame] at *
    exact ⟨fun _ => by omega, fun pause => absurd (h.2.1 pause) (by omega), h.2.2⟩

theorem countEndDiscard_bounds (s : State) : KeepsBounds s (countEndDiscard s) :=
  .ofCounters (by simp) <|
    countersBounded_of (by simp) (by simp) (by simp) (by simp) (by simp) (by simp [countEndDiscard]) (by simp)

theorem dealAtChainEnd_bounds {s t : State} (h : dealAtChainEnd s = some t) : KeepsBounds s t := by
  unfold dealAtChainEnd at h
  repeat' split at h
  all_goals cases h
  · next x l _ _ _ _ _ =>
    have echoed : KeepsBounds s { s with rtq.echo := some (echoOf s.lnk x.frame) } := .ofSame (by simp)
    exact echoed.trans (departFwd_bounds _)
  · exact (countEndDiscard_bounds s).trans (departFwd_bounds _)

theorem dealtAtChainEnd_bounds (s : State) : KeepsBounds s ((dealAtChainEnd s).getD s) := by
  cases h : dealAtChainEnd s with
  | none => exact .refl s
  | some t => exact dealAtChainEnd_bounds h

theorem releaseHead_bounds (x : FwdEntry) (s : State) : KeepsBounds s (releaseHead x s) :=
  (setHead_bounds _ s).trans (dealtAtChainEnd_bounds _)

theorem releaseHeld_bounds (n : Nat) (s : State) : KeepsBounds s (releaseHeld n s) := by
  unfold releaseHeld
  split
  · split
    · exact releaseHead_bounds _ s
    · exact .refl s
  · exact .refl s

theorem discardUrgent_bounds (s : State) : KeepsBounds s (discardUrgent s) := by
  have emptied : KeepsBounds s { s with fwq.slot := none } := .ofSame (by simp)
  unfold discardUrgent
  split
  · exact emptied.trans (countEndDiscard_bounds _)
  · exact .refl s

/-! ## Transmission, links, reception (R129, R130, R132, R137, R138, R144, R146) -/

/-- A port that changes in anything but its count of check errors. -/
theorem setPort_bounds {s : State} (p : Port) (x : PortState) (checks : x.checkErrors = (s.lnk.port p).checkErrors) :
    KeepsBounds s (s.setPort p x) := by
  refine .ofCounters (by simp) ?_
  cases p
  · exact countersBounded_of (by simp [State.setPort, checks]) (by simp) (by simp) (by simp) (by simp) (by simp) (by simp)
  · exact countersBounded_of (by simp) (by simp [State.setPort, checks]) (by simp) (by simp) (by simp) (by simp) (by simp)

theorem startTxB_bounds {s t : State} (h : startTxB s = some t) : KeepsBounds s t := by
  unfold startTxB at h
  repeat' split at h
  all_goals cases h
  all_goals exact setPort_bounds .b (s.lnk.b.start _ _) rfl

theorem vacate_bounds (k : TxSource) (s : State) : KeepsBounds s (vacate k s) := by
  have emptied : KeepsBounds s { s with fwq.slot := none } := .ofSame (by simp)
  cases k
  · exact emptied
  · exact departFwd_bounds s
  · exact departRet_bounds s

theorem endTransmission_bounds (p : Port) (s : State) : KeepsBounds s (endTransmission p s) := by
  unfold endTransmission
  dsimp only
  split
  · exact .refl s
  · exact (setPort_bounds p { s.lnk.port p with tx := none, marksWaiting := [], wire := _ } rfl).trans (vacate_bounds _ _)

theorem bringUp_bounds (p : Port) (s : State) : KeepsBounds s (bringUp p s) := by
  unfold bringUp
  dsimp only
  split
  · exact .refl s
  · refine setPort_bounds p _ ?_
    unfold PortState.sendMark
    dsimp only
    split <;> rfl

theorem takeDown_bounds (p : Port) (s : State) : KeepsBounds s (takeDown p s) := by
  have cut : KeepsBounds s
      (s.setPort p { s.lnk.port p with link := .down, received := .go, tx := none, marksWaiting := [] }) :=
    setPort_bounds p _ rfl
  cases p with
  | a =>
    unfold takeDown
    dsimp only
    repeat' split
    exacts [.refl s, cut.trans (vacate_bounds _ _), cut, cut]
  | b =>
    unfold takeDown
    dsimp only
    split
    · exact .refl s
    · refine KeepsBounds.trans ?_ (discardUrgent_bounds _)
      repeat' split
      exacts [cut.trans (vacate_bounds _ _), cut, cut]

theorem receiveMark_bounds (p : Port) (m : Mark) (s : State) : KeepsBounds s (receiveMark p m s) := by
  unfold receiveMark
  dsimp only
  split
  · exact .refl s
  · exact setPort_bounds p _ rfl

theorem countCheckError_bounds (p : Port) (s : State) : KeepsBounds s (countCheckError p s) := by
  refine KeepsBounds.trans ?_ (signal_bounds .checkErr _)
  cases p
  · exact .ofCounters (by simp) <|
      countersBounded_of (by simp [State.setPort]) (by simp) (by simp) (by simp) (by simp) (by simp) (by simp)
  · exact .ofCounters (by simp) <|
      countersBounded_of (by simp) (by simp [State.setPort]) (by simp) (by simp) (by simp) (by simp) (by simp)

/-- A frame that finds no room is counted, and OVERFLOW signalled (R137, R144). -/
theorem dropped_bounds {s : State} {l : Lnk} (counted : KeepsBounds s { s with lnk := l }) :
    KeepsBounds s (signal .overflow { s with lnk := l }) :=
  counted.trans (signal_bounds .overflow _)

theorem receiveUrgent_bounds (f : Frame) (s : State) : KeepsBounds s (receiveUrgent f s) := by
  have acted : ∀ t, KeepsBounds t (if actsOnUrgent t.lnk f then requestTrip .safeAll t else t) := by
    intro t
    split
    · exact requestTrip_bounds _ t
    · exact .refl t
  refine KeepsBounds.trans ?_ ((acted _).trans (discardUrgent_bounds _))
  split
  · exact .ofSame (by simp)
  · exact dropped_bounds (.ofCounters (by simp) (countersBounded_of id id id id (by simp) id id))

theorem receiveFwd_bounds (f : Frame) (s : State) : KeepsBounds s (receiveFwd f s) := by
  unfold receiveFwd
  split
  · next room => exact requeueFwd_bounds fun _ => by simpa using room
  · exact dropped_bounds (.ofCounters (by simp) (countersBounded_of id id (by simp) id id id id))

theorem receiveRet_bounds (f : Frame) (s : State) : KeepsBounds s (receiveRet f s) := by
  unfold receiveRet
  split
  · next room => exact appendRet_bounds f false room
  · exact dropped_bounds (.ofCounters (by simp) (countersBounded_of id id id (by simp) id id id))

theorem placeFrame_bounds (p : Port) (f : Frame) (s : State) : KeepsBounds s (placeFrame p f s) := by
  unfold placeFrame
  split
  · split
    · exact receiveUrgent_bounds f s
    · exact receiveFwd_bounds f s
  · exact receiveRet_bounds f s

theorem receiveFrame_bounds (p : Port) (bytes : List Byte) (s : State) : KeepsBounds s (receiveFrame p bytes s) := by
  unfold receiveFrame
  split
  · exact .refl s
  · split
    · exact placeFrame_bounds p _ s
    · exact countCheckError_bounds p s

/-! ## The admission pass and the flush (R145, R150) -/

/-- Where an outbox frame has room, the Return Queue has. -/
theorem retQueue_lt_of_outboxRoom {s : State} (room : s.outboxRoom = true) : s.rtq.queue.length < Config.retCapacity := by
  have free : marginEntries s.lnk.margin < s.retFree := of_decide_eq_true room
  unfold State.retFree at free
  omega

/-- An outbox frame that is admitted. -/
theorem admitted_bounds {s : State} {r : Rtq} (f : Frame) (same : r.queue = s.rtq.queue) (room : s.outboxRoom = true) :
    KeepsBounds s (appendRet f true { s with rtq := r }) := by
  have emptied : KeepsBounds s { s with rtq := r } :=
    .ofSame (by simp [same])
  exact emptied.trans (appendRet_bounds f true (by simpa [same] using retQueue_lt_of_outboxRoom room))

theorem passAlert_bounds (s : State) : KeepsBounds s (passAlert s) := by
  unfold passAlert
  split
  · split
    · next room => exact admitted_bounds (r := { s.rtq with alert := none }) _ rfl room
    · exact .refl s
  · exact .refl s

theorem passResponse_bounds (s : State) : KeepsBounds s (passResponse s) := by
  unfold passResponse
  split
  · split
    · next room => exact admitted_bounds (r := { s.rtq with response := none }) _ rfl (Bool.and_eq_true_iff.mp room).1
    · exact .refl s
  · exact .refl s

theorem passEcho_bounds (s : State) : KeepsBounds s (passEcho s) := by
  unfold passEcho
  split
  · split
    · next room => exact admitted_bounds (r := { s.rtq with echo := none }) _ rfl room
    · exact .refl s
  · exact .refl s

theorem passReport_bounds (s : State) : KeepsBounds s (passReport s) := by
  unfold passReport
  split
  · split
    · next room => exact admitted_bounds (r := { s.rtq with report := none }) _ rfl room
    · exact .refl s
  · exact .refl s

theorem admissionPass_bounds {s t : State} (h : admissionPass s = some t) : KeepsBounds s t := by
  unfold admissionPass at h
  split at h <;> cases h
  exact (((passAlert_bounds s).trans (passResponse_bounds _)).trans (passEcho_bounds _)).trans (passReport_bounds _)

/-- With both comparisons made the marks agree, whatever they were. -/
theorem compareBoth_marksAgree (s : State) : MarksAgree (compareRet (compareFwd s)) := by
  have forward := compareFwd_sentFwd s
  have back := compareRet_sentRet (compareFwd s)
  have agreesFwd := nextMark_agrees s.lnk.sentFwd s.fwdFree (marginEntries_pos s.lnk.margin)
  have agreesRet := nextMark_agrees s.lnk.sentRet s.retFree (marginEntries_pos s.lnk.margin)
  unfold MarksAgree
  simp only [compareFwd_frame, compareRet_frame, State.fwdFree, State.retFree] at *
  rw [back, forward]
  exact ⟨agreesFwd.1, agreesFwd.2, agreesRet.1, agreesRet.2⟩

/-- The flush keeps at most the heads in transmission, and makes both comparisons (R150). -/
theorem flushChain_bounds (s : State) : KeepsBounds s (flushChain s) := by
  refine .ofStores (by simp) (fun h => ?_) ?_ fun _ => compareBoth_marksAgree _
  · have kept : ∀ {α : Type} (b : Bool) (l : List α), (if b then l.take 1 else []).length ≤ l.length := by
      intro α b l
      split <;> simp
    simpa [flushChain, QueuesBounded] using And.intro ((kept _ _).trans h.1) ((kept _ _).trans h.2)
  · refine countersBounded_of ?_ ?_ (by simp) (by simp) (by simp) (by simp) (by simp) <;>
      simp [flushChain, PortState.flush]

/-! ## The Coil Scheduler -/

theorem cancelPending_bounds (s : State) : KeepsBounds s (cancelPending s) := .ofSame (by simp [cancelPending])

theorem handIn_bounds (d : Drive) (x : Targets) (s : State) : KeepsBounds s (handIn d x s) := by
  unfold handIn
  exact .ofSame (by simp)

theorem discardLatch_bounds (s : State) : KeepsBounds s (discardLatch s) := .ofSame (by simp [discardLatch])

theorem completeRecovery_bounds (s : State) : KeepsBounds s (completeRecovery s) := by
  unfold completeRecovery
  split
  · exact .refl s
  · exact .ofSame (by simp)

theorem landRecovery_bounds (e : Elem) (s : State) : KeepsBounds s (landRecovery e s) := by
  unfold landRecovery
  split
  · exact KeepsBounds.trans (.ofSame (by simp)) (completeRecovery_bounds _)
  · exact .refl s

theorem formRecovery_bounds (s : State) : KeepsBounds s (formRecovery s) := by
  unfold formRecovery
  split
  · exact KeepsBounds.trans (.ofSame (by simp)) (handIn_bounds _ _ _)
  · exact .refl s

/-- A NOT_FITTED element stays still where the positions of such elements stand and none of them is put in transit. -/
theorem unfittedStill_of {s t : State} (elements : t.tbs.elements = s.tbs.elements)
    (still : ∀ e : Elem, s.tbs.elements[e] = .notFitted → s.csd.recorded[e] = some 0 → s.csd.inTransit e = false →
      t.csd.recorded[e] = some 0 ∧ t.csd.inTransit e = false) (h : UnfittedStill s) : UnfittedStill t := by
  intro e unfitted
  rw [elements] at unfitted
  obtain ⟨position, rest⟩ := h e unfitted
  exact still e unfitted position rest

/-- Where the pulses stand, only the positions of the NOT_FITTED elements have to. -/
theorem unfittedStill_of_recorded {s t : State} (elements : t.tbs.elements = s.tbs.elements)
    (pulses : t.csd.pulses = s.csd.pulses)
    (still : ∀ e : Elem, s.tbs.elements[e] = .notFitted → t.csd.recorded[e] = s.csd.recorded[e]) (h : UnfittedStill s) :
    UnfittedStill t :=
  unfittedStill_of elements (fun e unfitted position rest =>
    ⟨(still e unfitted).trans position, by rwa [Csd.inTransit, pulses]⟩) h

/-- A change of the pulse and the recorded position of one element, which is not NOT_FITTED or at rest. -/
theorem changeAt_bounds {s t : State} (e : Elem) (apart : s.csd.inTransit e = true ∨ s.tbs.elements[e] ≠ .notFitted)
    (lnk : t.lnk = s.lnk) (fwq : t.fwq = s.fwq) (rtq : t.rtq = s.rtq) (tbs : t.tbs = s.tbs) (vfu : t.vfu = s.vfu)
    (evu : t.evu = s.evu) (recorded : ∀ j : Elem, j ≠ e → t.csd.recorded[j] = s.csd.recorded[j])
    (pulses : ∀ j : Elem, j ≠ e → t.csd.pulses[j] = s.csd.pulses[j]) : KeepsBounds s t where
  debt := debtInRange_of_same (by rw [vfu])
  queues := queuesBounded_of_same (by rw [fwq]) (by rw [rtq])
  counters := by simp [CountersBounded, lnk, evu]
  wear := wearBounded_of_same (by rw [tbs])
  grid := gridAscending_of_same (by rw [tbs])
  links := linksSound_of_same (by rw [tbs])
  marks := marksAgree_of_same (by rw [fwq]) (by rw [rtq]) (by rw [lnk]) (by rw [lnk]) (by rw [lnk])
  unfitted := unfittedStill_of (by rw [tbs]) fun j unfitted position rest => by
    have other : j ≠ e := by
      rintro rfl
      obtain flies | fitted := apart
      · rw [flies] at rest; cases rest
      · exact fitted unfitted
    rw [recorded j other, Csd.inTransit, pulses j other]
    exact ⟨position, rest⟩

theorem inTransit_of_pulse {c : Csd} {e : Elem} {p : Pulse} (pulse : c.pulses[e] = some p) : c.inTransit e = true := by
  simp [Csd.inTransit, pulse]

theorem getElem_set_other {α : Type} (v : Vector α 48) {e j : Elem} (x : α) (other : j ≠ e) : (v.set e x)[j] = v[j] := by
  have apart : e.val ≠ j.val := fun h => other (Fin.ext h.symm)
  simp [Vector.getElem_set_ne, apart]

theorem endPulse_bounds {s : State} {e : Elem} {p : Pulse} (pulse : s.csd.pulses[e] = some p) :
    KeepsBounds s (endPulse e p s) :=
  changeAt_bounds e (.inl (inTransit_of_pulse pulse)) rfl rfl rfl rfl rfl rfl (fun _ _ => rfl)
    fun _ other => getElem_set_other _ _ other

theorem landPulse_bounds {s : State} {e : Elem} {p : Pulse} (pulse : s.csd.pulses[e] = some p) :
    KeepsBounds s (landPulse e p s) :=
  changeAt_bounds e (.inl (inTransit_of_pulse pulse)) rfl rfl rfl rfl rfl rfl
    (fun _ other => getElem_set_other _ _ other) fun _ other => getElem_set_other _ _ other

theorem cutPulse_bounds (s : State) (e : Elem) : KeepsBounds s (cutPulse s e) := by
  unfold cutPulse
  split
  · exact .refl s
  · next p pulse =>
    exact changeAt_bounds e (.inl (inTransit_of_pulse pulse)) rfl rfl rfl rfl rfl rfl
      (fun _ other => getElem_set_other _ _ other) fun _ other => getElem_set_other _ _ other

theorem foldCut_bounds (l : List Elem) (s : State) : KeepsBounds s (l.foldl cutPulse s) := by
  induction l generalizing s with
  | nil => exact .refl s
  | cons e l ih => exact (cutPulse_bounds s e).trans (ih _)

theorem cutSupply_bounds (s : State) : KeepsBounds s (cutSupply s) := by
  have low : KeepsBounds s { s with csd.supply := .low } := .ofSame (by simp)
  have cut := low.trans (foldCut_bounds allElems { s with csd.supply := .low })
  unfold cutSupply
  dsimp only
  generalize allElems.foldl cutPulse { s with csd.supply := .low } = u at cut
  exact (cut.trans (.ofSame (by simp))).trans (cancelPending_bounds _)

theorem landForDrive_bounds (e : Elem) (d : Drive) (s : State) : KeepsBounds s (landForDrive e d s) := by
  cases d with
  | step => exact .refl s
  | safe => exact .ofSame (by simp [landForDrive, landSafe])
  | recovery => exact landRecovery_bounds e s

/-! ## Launches (R69, R72, R79) -/

theorem countLaunch_bounds (e : Elem) (c : ClassRec) (s : State) : KeepsBounds s (countLaunch e c s) := by
  have counted : KeepsBounds s { s with tbs.wear := s.tbs.wear.set e (min (s.tbs.wear[e] + 1) Config.wearCap) } :=
    { KeepsBounds.refl s with
      wear := fun h j => by
        by_cases same : j = e
        · subst same
          simp
        · rw [getElem_set_other _ _ same]
          exact h j }
  unfold countLaunch
  dsimp only
  split
  · exact counted.trans (.ofSame (by simp))
  · exact counted

theorem launch_bounds (d : Drive) {e : Elem} {c : ClassRec} (q : Pos) {s : State} (cls : s.tbs.classOf e = some c) :
    KeepsBounds s (launch d e c q s) := by
  have fitted : s.tbs.elements[e] ≠ .notFitted := by
    intro unfitted
    simp [Tbs.classOf, unfitted] at cls
  have launched : KeepsBounds s { s with
      csd.pending := s.csd.pending.set e none
      csd.pulses := s.csd.pulses.set e (some (newPulse s d e c q))
      csd.lastLaunch := s.csd.lastLaunch.set e (some s.now) } :=
    changeAt_bounds e (.inr fitted) rfl rfl rfl rfl rfl rfl (fun _ _ => rfl) fun _ other => getElem_set_other _ _ other
  have counted := launched.trans (countLaunch_bounds e c _)
  unfold launch
  dsimp only
  split
  · exact counted.trans (hotEvent_bounds _)
  · exact counted

theorem considerLaunch_bounds (d : Drive) (s : State) (e : Elem) : KeepsBounds s (considerLaunch d s e) := by
  unfold considerLaunch
  split
  · next q c _ cls =>
    split
    · exact launch_bounds d q cls
    · exact .refl s
  · exact .refl s

theorem foldLaunch_bounds (d : Drive) (l : List Elem) (s : State) : KeepsBounds s (l.foldl (considerLaunch d) s) := by
  induction l generalizing s with
  | nil => exact .refl s
  | cons e l ih => exact (considerLaunch_bounds d s e).trans (ih _)

theorem launchPass_bounds (s : State) : KeepsBounds s (launchPass s) := by
  have forgotten : KeepsBounds s { s with csd.passDue := false } := .ofSame (by simp)
  have settles : ∀ t, KeepsBounds t (settleDrive t) := by
    intro t
    unfold settleDrive
    split
    · exact .ofSame (by simp)
    · exact .refl t
  unfold launchPass
  dsimp only
  split
  · exact forgotten
  · exact (forgotten.trans (foldLaunch_bounds _ allElems _)).trans (settles _)

/-! ## The Verify Unit -/

theorem startSlot_bounds (s : State) : KeepsBounds s (startSlot s) := .ofSame (by simp [startSlot])

theorem startIdleLead_bounds (s : State) : KeepsBounds s (startIdleLead s) := by
  unfold startIdleLead
  split <;> exact .ofSame (by simp)

theorem stopVerifyTimers_bounds (s : State) : KeepsBounds s (stopVerifyTimers s) :=
  .ofSame (by simp [stopVerifyTimers, stopIdleLead])

theorem setInHand_bounds (h : Option InHand) (s : State) : KeepsBounds s { s with vfu.inHand := h } := .ofSame (by simp)

theorem startVerify_bounds (k : VerifyKind) (b : Bank) (s : State) : KeepsBounds s (startVerify k b s) :=
  .ofSame (by simp [startVerify])

theorem takeBank_bounds (k : VerifyKind) (b : Bank) (s : State) : KeepsBounds s (takeBank k b s) := by
  unfold takeBank
  split
  · exact startVerify_bounds k b s
  · exact .ofSame (by simp)

theorem verifyAction_bounds {s t : State} (h : verifyAction s = some t) : KeepsBounds s t := by
  unfold verifyAction at h
  split at h
  · obtain ⟨x, -, rfl⟩ := Option.map_eq_some_iff.mp h
    exact takeBank_bounds _ _ s
  · split at h <;> cases h
    exact startVerify_bounds _ _ s
  · cases h

theorem releaseClaim_bounds (k : VerifyKind) (s : State) : KeepsBounds s (releaseClaim k s) := by
  unfold releaseClaim
  repeat' split
  exacts [.ofSame (by simp), .refl s, .refl s]

theorem orphanVerify_bounds (k : VerifyKind) (s : State) : KeepsBounds s (orphanVerify k s) := by
  unfold orphanVerify
  repeat' split
  exacts [.ofSame (by simp), .refl s, .refl s]

theorem withdrawRecovery_bounds (s : State) : KeepsBounds s (withdrawRecovery s) := by
  have emptied : KeepsBounds s { s with vfu.requests := [] } := .ofSame (by simp)
  exact (emptied.trans (releaseClaim_bounds .recovery _)).trans (orphanVerify_bounds .recovery _)

theorem withdrawSequence_bounds (s : State) : KeepsBounds s (withdrawSequence s) := by
  unfold withdrawSequence
  split
  · exact ((setInHand_bounds none s).trans (releaseClaim_bounds .command _)).trans (orphanVerify_bounds .command _)
  · exact .refl s

/-- An element without a class is not read (R91). -/
theorem sensed_of_notFitted {t : Tbs} {e : Elem} (contacts : List (BitVec 7)) (unfitted : t.elements[e] = .notFitted) :
    sensed t contacts e = none := by
  simp [sensed, Tbs.readClass, Tbs.classOf, unfitted]

@[simp] theorem completeReading_recorded (b : Bank) (contacts : List (BitVec 7)) (s : State) :
    (completeReading b contacts s).csd.recorded = verifiedPositions s b contacts := by
  simp [completeReading]

@[simp] theorem completeReading_pulses (b : Bank) (contacts : List (BitVec 7)) (s : State) :
    (completeReading b contacts s).csd.pulses = s.csd.pulses := by
  simp [completeReading]

/-- A completed verify lowers the debt, not below −3, and corrects only elements that have a class. -/
theorem completeReading_bounds (b : Bank) (contacts : List (BitVec 7)) (s : State) :
    KeepsBounds s (completeReading b contacts s) where
  queues := queuesBounded_of_same (by simp) (by simp)
  counters := countersBounded_of_same (by simp)
  wear := wearBounded_of_same (by simp)
  grid := gridAscending_of_same (by simp)
  links := linksSound_of_same (by simp)
  marks := marksAgree_of_same (by simp) (by simp) (by simp) (by simp) (by simp)
  debt h := by
    unfold DebtInRange at *
    simp only [completeReading, debtDown]
    omega
  unfitted := unfittedStill_of_recorded (by simp) (by simp) fun e unfitted => by
    rw [completeReading_recorded]
    simp [verifiedPositions, sensed_of_notFitted contacts unfitted]

theorem endSequence_bounds (s : State) : KeepsBounds s (endSequence s) :=
  { KeepsBounds.refl s with debt := fun _ => ⟨by simp [endSequence], by simp [endSequence]⟩ }

theorem completeRequested_bounds (b : Bank) (s : State) : KeepsBounds s (completeRequested b s) :=
  .ofSame (by simp [completeRequested, removeLanded])

end Sys2Proof.Machine
end

section
/-! SUPPORT. The Step Engine, the Management Agent, the Mode Controller and in-band management keep the bounds of the part: what they store
of their own is sound by the decoding of its record, and what they ask of the other blocks keeps the bounds. -/

namespace Sys2Proof.Machine

/-! ## The Step Engine -/

theorem enterIdle_bounds (s : State) : KeepsBounds s (enterIdle s) := by
  obtain ⟨l, m, idle⟩ := enterIdle_eq s
  rw [idle]
  exact .ofSame (by simp)

theorem offerReport_bounds {s t : State} (h : offerReport s = some t) : KeepsBounds s t := by
  unfold offerReport at h
  split at h <;> cases h
  exact KeepsBounds.trans (.ofSame (by simp)) (enterIdle_bounds _)

theorem buildReport_bounds (entries : List RouteEntry) (s : State) : KeepsBounds s (buildReport entries s) := by
  by_cases reports : ∃ i o, s.ste.ident = some i ∧ s.ste.outcome = some o ∧ o ≠ .noPath
  · obtain ⟨i, o, ident, outcome, reports⟩ := reports
    by_cases room : s.ste.st = .reportWait ∧ s.rtq.report = none
    · rw [buildReport_placed entries ident outcome reports room.1 room.2]
      exact KeepsBounds.trans (.ofSame (by simp)) (enterIdle_bounds _)
    · rw [buildReport_pending entries ident outcome reports (not_and_or.mp room)]
      unfold State.withReport
      exact .ofSame (by simp)
  · unfold buildReport
    split
    · exact .refl s
    · next i o other ident outcome => exact absurd ⟨i, o, ident, outcome, other⟩ reports
    · exact .refl s

theorem requestRoutes_bounds (s : State) : KeepsBounds s (requestRoutes s) := by
  unfold requestRoutes
  repeat' split
  exacts [buildReport_bounds [] s, .ofSame (by simp), .refl s]

theorem finishStep_bounds (o : StepOutcome) (s : State) : KeepsBounds s (finishStep o s) := by
  have waits : KeepsBounds s { s with ste.st := .reportWait } := .ofSame (by simp)
  unfold finishStep
  dsimp only
  repeat' split
  exacts [enterIdle_bounds s, enterIdle_bounds s, waits.trans (requestRoutes_bounds _), waits.trans (buildReport_bounds [] _)]

theorem recordOutcome_bounds (o : StepOutcome) (s : State) : KeepsBounds s (recordOutcome o s) := by
  have marked : KeepsBounds s (markEnd o s) := by
    unfold markEnd
    exact .ofSame (by simp)
  unfold recordOutcome
  split
  · exact marked.trans (signal_bounds .stepFault _)
  · exact marked

theorem endStep_bounds (o : StepOutcome) (s : State) : KeepsBounds s (endStep o s) := by
  rw [endStep_eq]
  exact ((recordOutcome_bounds o s).trans (releaseHeld_bounds _ _)).trans (finishStep_bounds o _)

theorem takeRecord_bounds (x : FwdEntry) (p : PathRec) (s : State) : KeepsBounds s (takeRecord x p s) := by
  have taken : KeepsBounds (setHead { x with status := .held } s) (takeRecord x p s) := by
    unfold takeRecord startEvaluation stopIdleLead
    exact .ofSame (by simp)
  exact (setHead_bounds _ s).trans taken

theorem take_bounds (x : FwdEntry) (s : State) : KeepsBounds s (take x s) := by
  unfold take
  split
  · exact KeepsBounds.trans (.ofSame (by simp)) (releaseHead_bounds x _)
  · exact takeRecord_bounds x _ s

theorem preemptAndTake_bounds (x : FwdEntry) (s : State) : KeepsBounds s (preemptAndTake x s) := by
  have cancelled : KeepsBounds s (if s.ste.st = .actuating then cancelPending s else s) := by
    split
    · exact cancelPending_bounds s
    · exact .refl s
  exact (cancelled.trans (endStep_bounds .preempted _)).trans (take_bounds x _)

theorem offerStep_bounds {x : FwdEntry} {s t : State} (h : offerStep x s = some t) : KeepsBounds s t := by
  unfold offerStep at h
  split at h
  · cases h; exact take_bounds x s
  · split at h <;> cases h
    exact preemptAndTake_bounds x s

theorem enterActuating_bounds (s : State) : KeepsBounds s (enterActuating s) := by
  have entered : KeepsBounds s { s with ste.st := .actuating, ste.grace := none } := .ofSame (by simp)
  unfold enterActuating
  dsimp only
  split
  · exact entered
  · exact entered.trans (handIn_bounds _ _ _)

theorem enterSettling_bounds (s : State) : KeepsBounds s (enterSettling s) := by
  have entered : KeepsBounds s { s with ste.st := .settling } := .ofSame (by simp)
  unfold enterSettling
  dsimp only
  repeat' split
  exacts [entered, entered.trans (endStep_bounds _ _), .ofSame (by simp)]

theorem enterMuting_bounds (s : State) : KeepsBounds s (enterMuting s) := by
  have entered : KeepsBounds s { s with ste.st := .muting } := .ofSame (by simp)
  unfold enterMuting
  dsimp only
  repeat' split
  exacts [entered.trans (enterActuating_bounds _), entered.trans (endStep_bounds _ _), .ofSame (by simp)]

theorem releaseUnlessHold_bounds (s : State) : KeepsBounds s (releaseUnlessHold s) := by
  unfold releaseUnlessHold
  repeat' split
  exacts [.refl s, .refl s, releaseHeld_bounds 0 s]

theorem takeVerdict_bounds (v : Verdict) (s : State) : KeepsBounds s (takeVerdict v s) := by
  have evaluated : KeepsBounds s s.evaluated := .ofSame (by simp)
  have released := evaluated.trans (releaseUnlessHold_bounds s.evaluated)
  obtain ⟨o, h⟩ | h | h | h := takeVerdict_cases v s <;> rw [h]
  · exact evaluated.trans (endStep_bounds o _)
  · exact released.trans (enterActuating_bounds _)
  · exact released.trans (enterSettling_bounds _)
  · exact released.trans (enterMuting_bounds _)

theorem landForEngine_bounds (e : Elem) (d : Drive) (s : State) : KeepsBounds s (landForEngine e d s) := by
  by_cases actuating : s.ste.st = .actuating
  · have counted : KeepsBounds s { s with ste.landed := s.ste.landedAfter e d } := .ofSame (by simp)
    rw [landForEngine_eq actuating]
    split
    · exact counted.trans (enterSettling_bounds _)
    · exact counted
  · simpa [landForEngine, actuating] using KeepsBounds.refl s

theorem supplyLowForEngine_bounds (s : State) : KeepsBounds s (supplyLowForEngine s) := by
  unfold supplyLowForEngine
  split
  exacts [endStep_bounds _ s, endStep_bounds _ s, .refl s]

theorem handSignals_bounds (rf door : Bool) (s : State) : KeepsBounds s (handSignals rf door s) := by
  have handed : KeepsBounds s (handRf rf s) := by
    obtain h | ⟨-, h⟩ | h := handRf_cases rf s <;> rw [h]
    exacts [.refl s, enterActuating_bounds s, hotEvent_bounds s]
  refine handed.trans ?_
  unfold handSignals handDoor
  split
  · exact signal_bounds .door _
  · exact .refl _

/-! ## The Management Agent and the Mode Controller -/

theorem answer_bounds (x : Result) (s : State) : KeepsBounds s (answer x s) := by
  unfold answer
  split
  · unfold placeAnswer
    split <;> exact .ofSame (by simp)
  · exact .refl s
  · exact .refl s

theorem offerAnswer_bounds {s t : State} (h : offerAnswer s = some t) : KeepsBounds s t := by
  unfold offerAnswer at h
  split at h <;> cases h
  exact .ofSame (by simp)

theorem answerReset_bounds (s : State) : KeepsBounds s (answerReset s) := by
  unfold answerReset
  split
  · dsimp only
    split <;> exact .ofSame (by simp)
  · exact .refl s
  · exact .refl s

theorem endHold_bounds {s t : State} (h : endHold s = some t) : KeepsBounds s t := by
  unfold endHold at h
  split at h <;> cases h
  exact .ofSame (by simp)

theorem abandonForSafe_bounds (s : State) : KeepsBounds s (abandonForSafe s) := by
  unfold abandonForSafe
  split
  · exact endStep_bounds _ s
  · exact .refl s

theorem startIdleLeadIf_bounds (s : State) : KeepsBounds s (if s.ste.st = .idle then startIdleLead s else s) := by
  split
  · exact startIdleLead_bounds s
  · exact .refl s

theorem verifyAtSafe_bounds (fromEntry : Bool) (s : State) : KeepsBounds s (verifyAtSafe fromEntry s) := by
  refine (withdrawRecovery_bounds s).trans ?_
  unfold verifyAtSafe
  dsimp only
  split
  · exact (startSlot_bounds _).trans (startIdleLeadIf_bounds _)
  · exact .refl _

theorem formSafeDrive_bounds (s : State) : KeepsBounds s (formSafeDrive s) := by
  obtain ⟨x, d, o, h⟩ := formSafeDrive_eq s
  rw [h]
  exact .ofSame (by simp)

theorem enterSafeMode_bounds (s : State) : KeepsBounds s (enterSafeMode s) := by
  have cleared : KeepsBounds s { s with mdc.redrive := false } := .ofSame (by simp)
  have moded := cleared.trans (setMode_bounds (.safe .driving) _)
  have coil := ((moded.trans (abandonForSafe_bounds _)).trans (cancelPending_bounds _)).trans (discardLatch_bounds _)
  exact ((coil.trans (verifyAtSafe_bounds _ _)).trans (signal_bounds .safeEntered _)).trans (formSafeDrive_bounds _)

theorem redriveSafe_bounds (s : State) : KeepsBounds s (redriveSafe s) := by
  have cleared : KeepsBounds s { s with mdc.redrive := false } := .ofSame (by simp)
  have formed := cleared.trans (formSafeDrive_bounds _)
  unfold redriveSafe
  dsimp only
  split
  · exact formed
  · exact formed.trans (setMode_bounds _ _)

theorem enterEntry_bounds (o : EntryOrigin) (r : EntryRequest) (s : State) : KeepsBounds s (enterEntry o r s) := by
  have cleared : KeepsBounds s { s with mdc.outstanding := Targets.none, mdc.redrive := false } := .ofSame (by simp)
  have moded := (cleared.trans (setMode_bounds (.entry o r) _)).trans (stopVerifyTimers_bounds _)
  exact (moded.trans (releaseClaim_bounds .debtForced _)).trans (setInHand_bounds _ _)

theorem enterRunMode_bounds (s : State) : KeepsBounds s (enterRunMode s) := by
  have answered := (setMode_bounds .run s).trans (answer_bounds (.ack []) _)
  have unmarked : KeepsBounds s { answer (.ack []) (setMode .run s) with
      ste := { (answer (.ack []) (setMode .run s)).ste with settledMark := false } } := answered.trans (.ofSame (by simp))
  exact (unmarked.trans (startSlot_bounds _)).trans (startIdleLeadIf_bounds _)

theorem returnToConfig_bounds (s : State) : KeepsBounds s (returnToConfig s) :=
  ((setMode_bounds .config s).trans (stopVerifyTimers_bounds _)).trans (releaseClaim_bounds .debtForced _)

theorem failEntry_bounds (o : EntryOrigin) (s : State) : KeepsBounds s (failEntry o s) := by
  have answered := (withdrawSequence_bounds s).trans (answer_bounds (.nak .verifyFailed) _)
  cases o with
  | config => exact answered.trans (returnToConfig_bounds _)
  | safe => exact answered.trans (enterSafeMode_bounds _)

theorem tripEntry_bounds (s : State) : KeepsBounds s (tripEntry s) :=
  ((withdrawSequence_bounds s).trans (answer_bounds (.nak .state) _)).trans (enterSafeMode_bounds _)

theorem takeMismatch_bounds (s : State) : KeepsBounds s (takeMismatch s) := by
  unfold takeMismatch
  split
  · exact failEntry_bounds _ s
  · next sub _ =>
    cases sub with
    | driving => exact .ofSame (by simp [mismatchInSafe])
    | held => exact redriveSafe_bounds s
  · exact .refl s
  · exact .refl s

theorem tripBy_bounds (c : TripCause) (s : State) : KeepsBounds s (tripBy c s) := by
  unfold tripBy
  split
  · exact enterSafeMode_bounds s
  · split
    exacts [failEntry_bounds _ s, tripEntry_bounds s, tripEntry_bounds s, tripEntry_bounds s]
  · exact .refl s
  · exact .refl s

theorem takeTrip_bounds (s : State) : KeepsBounds s (takeTrip s) := by
  unfold takeTrip
  split
  · exact .refl s
  · exact KeepsBounds.trans (.ofSame (by simp)) (tripBy_bounds _ _)

theorem enterConfigMode_bounds (s : State) : KeepsBounds s (enterConfigMode s) := by
  have cleared : KeepsBounds s { s with mdc.outstanding := Targets.none, mdc.redrive := false } := .ofSame (by simp)
  have moded := (cleared.trans (setMode_bounds .config _)).trans (stopVerifyTimers_bounds _)
  have withdrawn := (moded.trans (releaseClaim_bounds .debtForced _)).trans (withdrawRecovery_bounds _)
  have ended : ∀ x, KeepsBounds x (endRecovery x) := by
    intro x
    unfold endRecovery
    split
    · exact (cancelPending_bounds x).trans (discardLatch_bounds _)
    · exact discardLatch_bounds x
  unfold enterConfigMode
  dsimp only
  split
  · exact withdrawn.trans (ended _)
  · exact withdrawn

theorem returnSupply_bounds (s : State) : KeepsBounds s (returnSupply s) := by
  have good : KeepsBounds s { s with csd.supply := .good, csd.passDue := true } := .ofSame (by simp)
  refine good.trans ?_
  unfold returnSupply
  dsimp only
  split
  exacts [formRecovery_bounds _, (discardLatch_bounds _).trans (redriveSafe_bounds _), discardLatch_bounds _,
    discardLatch_bounds _]

theorem completeSafe_bounds {s t : State} (h : completeSafe s = some t) : KeepsBounds s t := by
  unfold completeSafe at h
  split at h
  · split at h <;> cases h
    · exact KeepsBounds.trans (.ofSame (by simp)) (formSafeDrive_bounds _)
    · exact setMode_bounds _ s
  · cases h

/-! ## What a sound record holds (R7, R26, R80) -/

theorem requireField_bind_ok_iff {α : Type} {ok : Bool} {n sub : Nat} {m : Except FieldFault α} {x : α} :
    (requireField ok n sub >>= fun _ => m) = .ok x ↔ ok = true ∧ m = .ok x := by
  cases ok <;> simp [requireField, bind, Except.bind]

/-- The throw number of a node reference is not 0. -/
theorem decodeNode_throw {r : List Byte} {off : Nat} {n : Node} (h : decodeNode r off = some n) (e : Elem) :
    n ≠ .throw e 0 := by
  rintro rfl
  unfold decodeNode at h
  dsimp only at h
  split at h
  case h_4 =>
    split at h
    · split at h
      · split at h
        · cases h
        · next above =>
          simp only [Option.some.injEq, Node.throw.injEq] at h
          exact above (congrArg Fin.val h.2)
      · cases h
    · cases h
  case h_5 => cases h
  all_goals split at h <;> cases h

theorem decodeLink_sound {r : List Byte} {l : LinkRec} (h : decodeLink r = .ok (some l)) :
    l.a ≠ l.b ∧ ∀ e : Elem, l.a ≠ .throw e 0 ∧ l.b ≠ .throw e 0 := by
  unfold decodeLink at h
  rw [requireField_bind_ok_iff] at h
  obtain ⟨-, h⟩ := h
  split at h
  · cases h
  · split at h
    · cases h
    · next a first =>
      split at h
      · cases h
      · next b second =>
        rw [requireField_bind_ok_iff] at h
        obtain ⟨apart, h⟩ := h
        cases row : decodeRow r 7 3 with
        | error f => simp [row, bind, Except.bind] at h
        | ok x =>
          simp only [row, bind, Except.bind, pure, Except.pure, Except.ok.injEq, Option.some.injEq] at h
          subst h
          exact ⟨by simpa using apart, fun e => ⟨decodeNode_throw first e, decodeNode_throw second e⟩⟩

theorem decodeWear_le {r : List Byte} {n : Nat} (h : decodeWear r = .ok n) : n ≤ Config.wearCap := by
  unfold decodeWear at h
  rw [requireField_bind_ok_iff] at h
  obtain ⟨below, h⟩ := h
  cases h
  simpa using below

/-- Each frequency above the one before it: the grid ascends. -/
theorem gridOkAt_ascending {g : Vector Nat 8} (ok : ∀ i, gridOkAt g i = true) :
    0 < g[0] ∧ ∀ i j : Fin 8, i < j → g[i] < g[j] := by
  have next : ∀ i : Fin 7, g[i.castSucc] < g[i.succ] := by
    intro i
    have here := ok i.succ
    simpa [gridOkAt, Fin.succ_ne_zero] using (Bool.and_eq_true_iff.mp here).2
  have first := (Bool.and_eq_true_iff.mp (ok 0)).1
  exact ⟨Nat.pos_of_ne_zero (by simpa using first),
    fun i j below => (Fin.strictMono_iff_lt_succ (f := fun i : Fin 8 => g[i])).mpr next below⟩

theorem decodeGrid_sound {r : List Byte} {g : Vector Nat 8} (h : decodeGrid r = .ok (some g)) :
    0 < g[0] ∧ ∀ i j : Fin 8, i < j → g[i] < g[j] := by
  unfold decodeGrid at h
  rw [requireField_bind_ok_iff] at h
  obtain ⟨-, h⟩ := h
  split at h
  · cases h
  · split at h
    · cases h
    · next sound =>
      cases h
      refine gridOkAt_ascending fun i => ?_
      simpa using List.findIdx?_eq_none_iff.mp sound i (List.mem_finRange i)

/-! ## LOAD (R6, R153) -/

theorem storeClass_bounds {c : Fin 8} {r : List Byte} {s t : State} (h : storeClass c r s = .ok t) : KeepsBounds s t := by
  obtain ⟨x, -, -, rfl⟩ := storeClass_ok_iff.mp h
  refine { KeepsBounds.refl s with unfitted := unfittedStill_of_recorded rfl rfl fun e unfitted => ?_ }
  have other : s.tbs.isOfClass e c = false := by rw [Tbs.isOfClass, unfitted]; rfl
  simp [other]

theorem storeElement_bounds {e : Elem} {r : List Byte} {s t : State} (h : storeElement e r s = .ok t) : KeepsBounds s t := by
  obtain ⟨x, -, free, rfl⟩ := storeElement_ok_iff.mp h
  refine { KeepsBounds.refl s with unfitted := fun still j unfitted => ?_ }
  by_cases same : j = e
  · subst same
    have absent : x = .notFitted := by simpa using unfitted
    have rest : s.csd.inTransit j = false := (Bool.or_eq_false_iff.mp free).1
    refine ⟨?_, by rwa [Csd.inTransit] at rest ⊢⟩
    simp [positionAfterElement, absent]
  · dsimp only at unfitted
    rw [getElem_set_other _ _ same] at unfitted
    obtain ⟨position, rest⟩ := still j unfitted
    refine ⟨?_, by rwa [Csd.inTransit] at rest ⊢⟩
    dsimp only
    rw [getElem_set_other _ _ same]
    exact position

theorem storeCore_bounds {r : List Byte} {s t : State} (h : storeCore r s = .ok t) : KeepsBounds s t := by
  unfold storeCore at h
  cases d : decodeCore r with
  | error f => simp [d, fieldNak, bind, Except.bind] at h
  | ok x =>
    simp only [d, fieldNak, bind, Except.bind, pure, Except.pure, throw, throwThe, MonadExceptOf.throw] at h
    split at h <;> cases h
    exact .ofSame (by simp)

theorem storeRecord_bounds {t : TableId} {i : Nat} {r : List Byte} {s u : State} (h : storeRecord t i r s = .ok u) :
    KeepsBounds s u := by
  cases t with
  | cls => exact storeClass_bounds h
  | element => exact storeElement_bounds h
  | core => exact storeCore_bounds h
  | aux =>
    obtain ⟨x, -, rfl⟩ := plainStore_ok_iff.mp h
    have stored : KeepsBounds s { s with axu.records := s.axu.records.set (Fin.ofNat 4 i) x } := .ofSame (by simp)
    exact stored.trans (handSignals_bounds _ _ _)
  | link =>
    obtain ⟨x, sound, rfl⟩ := plainStore_ok_iff.mp h
    refine { KeepsBounds.refl s with links := fun before j l present => ?_ }
    have place : (s.tbs.links.set (Fin.ofNat 160 i) x)[j] = if (Fin.ofNat 160 i).val = j.val then x else s.tbs.links[j] :=
      Vector.getElem_set _ _
    have present := place.symm.trans present
    split at present
    · exact decodeLink_sound (sound.trans (congrArg _ present))
    · exact before j l present
  | grid =>
    obtain ⟨x, sound, rfl⟩ := plainStore_ok_iff.mp h
    exact { KeepsBounds.refl s with grid := fun _ g present => decodeGrid_sound (sound.trans (congrArg Except.ok present)) }
  | wear =>
    obtain ⟨x, sound, rfl⟩ := plainStore_ok_iff.mp h
    refine { KeepsBounds.refl s with wear := fun before j => ?_ }
    by_cases same : j = Fin.ofNat 48 i
    · subst same
      simpa using decodeWear_le sound
    · dsimp only
      rw [getElem_set_other _ _ same]
      exact before j
  | interlock | eloss | tcorr | runtime | path =>
    obtain ⟨x, -, rfl⟩ := plainStore_ok_iff.mp h
    exact .ofSame (by simp)
  | position | status | route => cases h

theorem serveLoad_bounds (t : TableId) (i : Nat) (r : List Byte) (s : State) : KeepsBounds s (serveLoad t i r s) := by
  unfold serveLoad
  split
  · next u h =>
    refine KeepsBounds.trans ?_ (answer_bounds _ u)
    unfold loadRecord at h
    split at h
    · cases h
    · split at h
      · cases h
      · split at h
        · cases h
        · exact storeRecord_bounds h
  · exact answer_bounds _ s

theorem serveFetch_bounds (t : TableId) (i : Nat) (s : State) : KeepsBounds s (serveFetch t i s) := by
  unfold serveFetch
  dsimp only
  repeat' split
  exacts [(chose_bounds s).trans (answer_bounds _ _), answer_bounds _ s, answer_bounds _ s]

/-! ## Commands (R104, R105, R109, R123 to R125, R162 to R165) -/

theorem serveClearCounters_bounds (s : State) : KeepsBounds s (serveClearCounters s) := by
  have cleared : KeepsBounds s { s with
      lnk.a := { s.lnk.a with checkErrors := 0 }
      lnk.b := { s.lnk.b with checkErrors := 0 }
      lnk.fwdDrops := 0
      lnk.retDrops := 0
      lnk.urgentDrops := 0
      lnk.endDiscards := 0
      evu.hotCount := 0 } :=
    .ofCounters (by simp) fun _ => by simp [CountersBounded]
  exact cleared.trans (answer_bounds _ _)

theorem resetVerify_bounds (s : State) : KeepsBounds s (resetVerify s) :=
  { KeepsBounds.refl s with debt := fun _ => ⟨by simp [resetVerify], by simp [resetVerify]⟩ }

theorem serveSoftReset_bounds (s : State) : KeepsBounds s (serveSoftReset s) := by
  have cleared : KeepsBounds s { s with mdc.outstanding := Targets.none, mdc.redrive := false, mdc.validating := none } :=
    .ofSame (by simp)
  have moded := cleared.trans (setMode_bounds .config _)
  have engine : ∀ x, KeepsBounds x (resetEngine x) := fun x => .ofSame (by simp [resetEngine])
  have coil : ∀ x, KeepsBounds x (resetCoil x) := fun x =>
    (cancelPending_bounds x).trans (discardLatch_bounds _)
  have events : ∀ x, KeepsBounds x (resetEvents x) := by
    intro x
    unfold resetEvents
    exact .ofSame (by simp)
  exact (((((moded.trans (engine _)).trans (coil _)).trans (resetVerify_bounds _)).trans (events _)).trans
    (flushChain_bounds _)).trans (answerReset_bounds _)

theorem serveCommand_bounds (c : Command) (arg : List Byte) (s : State) : KeepsBounds s (serveCommand c arg s) := by
  cases c <;> dsimp only [serveCommand]
  case enterRun =>
    unfold serveEnterRun
    split
    exacts [answer_bounds _ s, .ofSame (by simp)]
  case enterConfig =>
    unfold serveEnterConfig
    split
    exacts [(enterConfigMode_bounds s).trans (answer_bounds _ _), answer_bounds _ s]
  case enterSafe =>
    unfold serveEnterSafe
    split
    exacts [(enterSafeMode_bounds s).trans (answer_bounds _ _), answer_bounds _ s, answer_bounds _ s, answer_bounds _ s]
  case resume =>
    unfold serveResume
    split
    exacts [answer_bounds _ s, enterEntry_bounds _ _ s]
  case verifyAll => exact setInHand_bounds _ s
  case verifyBank =>
    unfold serveVerifyBank
    repeat' split
    exacts [answer_bounds _ s, answer_bounds _ s, setInHand_bounds _ s, answer_bounds _ s]
  case readClearEvents => exact (clearFlags_bounds _ s).trans (answer_bounds _ _)
  case clearCounters => exact serveClearCounters_bounds s
  case setMarker => exact KeepsBounds.trans (.ofSame (by simp)) (answer_bounds _ { s with tbs.marker := BitVec.ofNat 32 (beNat arg) })
  case softReset => exact serveSoftReset_bounds s

theorem handRequest_bounds (f : Frame) (s : State) : KeepsBounds s (handRequest f s) := by
  have handed : KeepsBounds s { s with mga := .serving { tag := f.tag, payload := f.payload } } := .ofSame (by simp)
  refine handed.trans ?_
  unfold handRequest
  dsimp only
  split
  · next d _ =>
    cases d with
    | load t i r => exact serveLoad_bounds t i r _
    | fetch t i => exact serveFetch_bounds t i _
    | command c arg => exact serveCommand_bounds c arg _
  · exact answer_bounds _ _

end Sys2Proof.Machine
end

section
/-! PROOF. Every step keeps the bounds (R7, R9, R26, R79, R80, R97, R136, R148, R149, R177; O59): each reaction and each event's own effect
does, and a reset begins within them. -/

namespace Sys2Proof.Machine

/-! ## The consequences of an event -/

theorem restartEvaluation_bounds {s t : State} (h : restartEvaluation s = some t) : KeepsBounds s t := by
  unfold restartEvaluation at h
  repeat' split at h
  all_goals cases h
  exact .ofSame (by simp)

theorem startTxA_bounds {s t : State} (h : startTxA s = some t) : KeepsBounds s t := by
  unfold startTxA at h
  repeat' split at h
  all_goals cases h
  exact setPort_bounds .a (s.lnk.a.start _ _) rfl

theorem beginCopy_bounds (f : Frame) (s : State) : KeepsBounds s (beginCopy f s) := by
  obtain h | h | ⟨t, begun, h⟩ := beginCopy_cases f s <;> rw [h]
  exacts [.refl s, chose_bounds s, (startTxB_bounds begun).trans (chose_bounds t)]

theorem handBroadcast_bounds (x : FwdEntry) (s : State) : KeepsBounds s (handBroadcast x s) :=
  (((setHead_bounds _ s).trans (beginCopy_bounds _ _)).trans (handRequest_bounds _ _)).trans (dealtAtChainEnd_bounds _)

theorem treatHead_bounds {x : FwdEntry} {s t : State} (h : treatHead x s = some t) : KeepsBounds s t := by
  unfold treatHead at h
  split at h
  · split at h
    · cases h
      exact releaseHead_bounds _ s
    · exact offerStep_bounds h
  · split at h
    · cases h
      exact (departFwd_bounds s).trans (handRequest_bounds _ _)
    · split at h <;> cases h
      exacts [handBroadcast_bounds x s, releaseHead_bounds x s]

theorem examineHead_bounds {s t : State} (h : examineHead s = some t) : KeepsBounds s t := by
  unfold examineHead at h
  split at h
  · split at h
    · exact dealAtChainEnd_bounds h
    · cases h
    · exact treatHead_bounds h
  · cases h

theorem makePass_bounds {s t : State} (h : makePass s = some t) : KeepsBounds s t := by
  unfold makePass at h
  split at h
  · split at h
    · cases h
      exact launchPass_bounds s
    · next v taken =>
      split at h
      · split at h <;> cases h
        exacts [(verifyAction_bounds taken).trans (chose_bounds v), (chose_bounds s).trans (launchPass_bounds _)]
      · cases h
        exact launchPass_bounds s
  · cases h

theorem chooseVerify_bounds {s t : State} (h : chooseVerify s = some t) : KeepsBounds s t := by
  unfold chooseVerify at h
  split at h
  · cases h
  · next v taken _ =>
    cases h
    exact verifyAction_bounds taken
  · next v x taken examined =>
    split at h
    · split at h <;> cases h
      exacts [(verifyAction_bounds taken).trans (chose_bounds v), (examineHead_bounds examined).trans (chose_bounds x)]
    · cases h
      exact verifyAction_bounds taken

theorem react_bounds {s t : State} (h : react s = some t) : KeepsBounds s t := by
  rcases react_cases h with h | h | h | h | h | h | h | h | h | h | h
  exacts [restartEvaluation_bounds h, makePass_bounds h, chooseVerify_bounds h, completeSafe_bounds h, endHold_bounds h,
    offerAnswer_bounds h, offerReport_bounds h, examineHead_bounds h, admissionPass_bounds h, startTxB_bounds h,
    startTxA_bounds h]

theorem settled_bounds (s : State) : KeepsBounds s (settled s) :=
  (settle_keeps (P := KeepsBounds s) (R := fun _ _ => True) (fun _ => trivial) (fun _ _ _ _ _ => trivial)
    (fun _ _ kept h => ⟨kept.trans (react_bounds h), trivial⟩) _ s (.refl s)).1

/-- An event whose own effect keeps the bounds keeps them with all its consequences. -/
theorem event_bounds {effect : State → State} (keeps : ∀ s, KeepsBounds s (effect s)) (s : State) :
    KeepsBounds s (event effect s) := by
  have level : KeepsBounds s (levelRead s) := by
    unfold levelRead
    split
    · exact .refl s
    · exact (readLevelConditions_bounds s).trans (settled_bounds _)
  unfold event
  split
  · exact .refl s
  · exact (level.trans (keeps _)).trans (settled_bounds _)

/-! ## The events' own effects -/

theorem pulseEndEffect_bounds (e : Elem) (s : State) : KeepsBounds s (pulseEndEffect e s) := by
  unfold pulseEndEffect
  split
  · next p pulse =>
    split
    · exact (advance_bounds s _).trans (endPulse_bounds pulse)
    · exact .refl s
  · exact .refl s

theorem pulseLandEffect_bounds (e : Elem) (s : State) : KeepsBounds s (pulseLandEffect e s) := by
  unfold pulseLandEffect
  split
  · next p pulse =>
    split
    · rw [reportLanding_eq]
      exact (((advance_bounds s _).trans (landPulse_bounds pulse)).trans (landForDrive_bounds e _ _)).trans
        (landForEngine_bounds e _ _)
    · exact .refl s
  · exact .refl s

theorem recoveryEffect_bounds (b : Bank) (s : State) : KeepsBounds s (recoveryEffect b s) := by
  unfold recoveryEffect
  split
  · exact .ofSame (by simp)
  · exact .refl s

theorem lockoutEffect_bounds (e : Elem) (s : State) : KeepsBounds s (lockoutEffect e s) := by
  unfold lockoutEffect
  split
  · dsimp only
    split <;> exact .ofSame (by simp [endLockout])
  · exact .refl s

theorem supplyLowEffect_bounds (time : Nat) (s : State) : KeepsBounds s (supplyLowEffect time s) := by
  unfold supplyLowEffect
  split
  · exact .refl s
  · exact (((advance_bounds s time).trans (cutSupply_bounds _)).trans (signal_bounds .vcoilLow _)).trans
      (supplyLowForEngine_bounds _)

theorem supplyReturnEffect_bounds (time : Nat) (s : State) : KeepsBounds s (supplyReturnEffect time s) := by
  unfold supplyReturnEffect
  split
  · exact .refl s
  · exact (advance_bounds s time).trans (returnSupply_bounds _)

theorem lineEffect_bounds (time : Nat) (line : Fin 4) (level : Bool) (s : State) :
    KeepsBounds s (lineEffect time line level s) := by
  have sampled : KeepsBounds s { s.advance time with axu.levels := s.axu.levels.set line level } := .ofSame (by simp)
  exact sampled.trans (handSignals_bounds _ _ _)

theorem requestArrives_bounds (h : ReqHead) (payload : List Byte) (s : State) : KeepsBounds s (requestArrives h payload s) := by
  unfold requestArrives
  split
  · exact .refl s
  · exact (advance_bounds s _).trans (placeFrame_bounds _ _ _)

theorem validationEffect_bounds (time : Nat) (s : State) : KeepsBounds s (validationEffect time s) := by
  unfold validationEffect
  split
  · exact .refl s
  · have done : KeepsBounds s { s.advance time with mdc.validating := none } := .ofSame (by simp)
    dsimp only
    split
    exacts [done.trans (answer_bounds _ _), done.trans (enterEntry_bounds _ _ _)]

theorem verdictEffect_bounds (time : Nat) (s : State) : KeepsBounds s (verdictEffect time s) := by
  unfold verdictEffect
  split
  · exact (advance_bounds s time).trans (takeVerdict_bounds _ _)
  · exact .refl s

theorem graceEffect_bounds (s : State) : KeepsBounds s (graceEffect s) := by
  unfold graceEffect
  split
  · exact (advance_bounds s _).trans (endStep_bounds _ _)
  · exact .refl s

theorem dwellEffect_bounds (s : State) : KeepsBounds s (dwellEffect s) := by
  unfold dwellEffect
  split
  · exact (advance_bounds s _).trans (endStep_bounds _ _)
  · exact .refl s

theorem routesEffect_bounds (time : Nat) (s : State) : KeepsBounds s (routesEffect time s) := by
  unfold routesEffect
  split
  · exact KeepsBounds.trans (t := { s.advance time with rev.route := none }) (.ofSame (by simp)) (buildReport_bounds _ _)
  · exact .refl s

theorem completeCommand_bounds (mismatched : Bool) (s : State) : KeepsBounds s (completeCommand mismatched s) := by
  have handed : ∀ h, KeepsBounds s { s with vfu.inHand := h } := fun h => setInHand_bounds h s
  have ended := endSequence_bounds s
  unfold completeCommand
  repeat' split
  exacts [.refl s, (handed none).trans (answer_bounds _ _), handed _, ended.trans (answer_bounds _ _), .refl s, handed _,
    ended.trans (enterRunMode_bounds _)]

theorem completeFor_bounds (k : VerifyKind) (b : Bank) (mismatched : Bool) (s : State) :
    KeepsBounds s (completeFor k b mismatched s) := by
  cases k with
  | command => exact completeCommand_bounds mismatched s
  | recovery => exact completeRequested_bounds b s
  | debtForced | ordinary | pullIn | withdrawn => exact .refl s

theorem verifyEffect_bounds (contacts : List (BitVec 7)) (s : State) : KeepsBounds s (verifyEffect contacts s) := by
  unfold verifyEffect
  split
  · next b k due _ =>
    have completed := ((advance_bounds s due).trans (completeReading_bounds b contacts _)).trans
      (completeFor_bounds k b (bankMismatched s b contacts) _)
    dsimp only
    split
    exacts [(completed.trans (signal_bounds (.mismatch b) _)).trans (takeMismatch_bounds _), completed]
  · exact .refl s
  · exact .refl s

/-- The debt rises to 5 at most (R98). -/
theorem raiseDebt_bounds (s : State) : KeepsBounds s (raiseDebt s) := by
  unfold raiseDebt
  split
  · exact signal_bounds .verifyLate s
  · exact { KeepsBounds.refl s with debt := fun ⟨low, _⟩ => ⟨by simp only [debtUp]; omega, by simp only [debtUp]; omega⟩ }

theorem slotEffect_bounds (s : State) : KeepsBounds s (slotEffect s) := by
  unfold slotEffect
  split
  · exact ((advance_bounds s _).trans (startSlot_bounds _)).trans (raiseDebt_bounds _)
  · exact .refl s

theorem idleLeadEffect_bounds (s : State) : KeepsBounds s (idleLeadEffect s) := by
  unfold idleLeadEffect
  split
  · exact .ofSame (by simp)
  · exact .refl s

/-! ## Every command -/

/-- The reset state lies within every bound, whatever the pins say. -/
theorem initial_bounds (s : State) (p : Pins) (now choices : Nat) (pending : List Instr) :
    KeepsBounds s (State.initial p now choices pending) where
  debt _ := by simp [DebtInRange, State.initial]
  queues _ := by simp [QueuesBounded, State.initial]
  counters _ := by simp [CountersBounded, State.initial, PortState.initial]
  wear _ e := by simp [State.initial]
  grid _ g present := by simp [State.initial] at present
  links _ i l present := by simp [State.initial] at present
  unfitted _ e absent := by simp [State.initial] at absent
  marks _ := by
    have below : marginEntries p.margin < 24 := by cases p.margin <;> decide
    simp only [MarksAgree, State.fwdFree, State.retFree, State.initial, Config.fwdCapacity, Config.retCapacity,
      List.length_nil]
    exact ⟨fun _ => by omega, nofun, fun _ => by omega, nofun⟩

theorem exec_bounds {c : Instr} {s t : State} (h : exec c s = .next t) : KeepsBounds s t := by
  have ran : ∀ {effect : State → State}, (∀ s, KeepsBounds s (effect s)) →
      Host.Outcome.next (event effect s) = (.next t : Host.Outcome State Fault Refusal) → KeepsBounds s t := by
    rintro effect keeps ⟨⟩
    exact event_bounds keeps s
  cases c with
  | powerOn time pins => cases h; exact initial_bounds _ _ _ _ _
  | resetN time =>
    cases h
    exact (initial_bounds s s.heldPins (max s.now time) s.choices s.pending).trans
      (.ofSame (by simp [heldInReset, restart]))
  | resetNRelease time pins =>
    have h : (if s.inReset then restart pins time s else s) = t := Host.Outcome.next.inj h
    split at h <;> cases h
    exacts [initial_bounds _ _ _ _ _, .refl s]
  | levelConditionsRead time => exact ran (fun s => advance_bounds s time) h
  | linkUp time port => exact ran (fun s => (advance_bounds s time).trans (bringUp_bounds port _)) h
  | linkDown time port => exact ran (fun s => (advance_bounds s time).trans (takeDown_bounds port _)) h
  | frameReceived time port bytes => exact ran (fun s => (advance_bounds s time).trans (receiveFrame_bounds port bytes _)) h
  | flowMarkReceived time port mark => exact ran (fun s => (advance_bounds s time).trans (receiveMark_bounds port mark _)) h
  | transmissionEnd time port => exact ran (fun s => (advance_bounds s time).trans (endTransmission_bounds port _)) h
  | spanVerdict time => exact ran (verdictEffect_bounds time) h
  | graceTimerExpiry => exact ran graceEffect_bounds h
  | dwellTimerExpiry => exact ran dwellEffect_bounds h
  | routeRequestComplete time => exact ran (routesEffect_bounds time) h
  | pulseEnd e => exact ran (pulseEndEffect_bounds e) h
  | pulseLand e => exact ran (pulseLandEffect_bounds e) h
  | bankRecoveryReached b => exact ran (recoveryEffect_bounds b) h
  | lockoutElapsed e => exact ran (lockoutEffect_bounds e) h
  | vcoilLow time => exact ran (supplyLowEffect_bounds time) h
  | supplyReturn time => exact ran (supplyReturnEffect_bounds time) h
  | verifyComplete contacts => exact ran (verifyEffect_bounds contacts) h
  | slotTimerExpiry => exact ran slotEffect_bounds h
  | idleLeadExpiry => exact ran idleLeadEffect_bounds h
  | validationComplete time => exact ran (validationEffect_bounds time) h
  | trip time => exact ran (fun s => (advance_bounds s time).trans (takeTrip_bounds _)) h
  | presentedSignalChange time line level => exact ran (lineEffect_bounds time line level) h
  | load | fetch | enterRun | resume | enterConfig | enterSafe | verifyAll | verifyBank | readClearEvents | clearCounters
    | setMarker | softReset => exact ran (requestArrives_bounds _ _) h

theorem step_bounds {s t : State} (h : step s = .next t) : KeepsBounds s t := by
  unfold step at h
  split at h
  · cases h
    exact .refl s
  · next c rest _ =>
    have taken : KeepsBounds s { s with pending := rest } := .ofSame (by simp)
    exact taken.trans (exec_bounds h)

/-- Settles O59: what one step may do to each bound, read off for the eight of them. -/
theorem boundsAreKept : Obligations.BoundsAreKept := by
  intro s t taken
  have kept := step_bounds taken
  exact ⟨kept.debt, kept.queues, kept.counters, kept.wear, kept.grid, kept.links, kept.unfitted, kept.marks⟩

end Sys2Proof.Machine
end

section
/-! PROOF. The timers of the Verify Unit (R97 to R99; O36): a slot expiry restarts the timer and raises the debt, or finds it at 5; the
idle lead's expiry sets its mark. -/

namespace Sys2Proof.Machine

/-! ## The timers' own effects -/

theorem slotEffect_eq {due : Nat} {s : State} (slot : s.vfu.slot = some due) :
    slotEffect s = raiseDebt (startSlot (s.advance due)) := by
  unfold slotEffect
  rw [slot]

theorem idleLeadEffect_eq {due : Nat} {s : State} (lead : s.vfu.idleLead = some due) :
    idleLeadEffect s = { s.advance due with vfu.idleLead := none, vfu.idleMark := true } := by
  unfold idleLeadEffect
  rw [lead]

theorem raiseDebt_of_full {s : State} (full : s.vfu.debt = 5) : raiseDebt s = signal .verifyLate s := if_pos full

theorem raiseDebt_of_below {s : State} (below : s.vfu.debt < 5) :
    raiseDebt s = { s with vfu.debt := s.vfu.debt + 1 } := by
  have raised : debtUp s.vfu.debt = s.vfu.debt + 1 := by unfold debtUp; omega
  rw [raiseDebt, if_neg below.ne, raised]

/-- What a slot expiry leaves alone: it moves no element, asks for no trip and keeps the chain side, the round and the front. -/
structure SlotExpired (s t : State) : Prop where
  chain : KeptChain s t
  coil : t.csd = s.csd
  tables : t.tbs = s.tbs
  control : t.mdc = s.mdc
  engine : t.ste = s.ste
  evaluation : t.rev = s.rev
  clock : t.now = s.now
  round : t.vfu.round = s.vfu.round
  demands : t.vfu.activity = s.vfu.activity ∧ t.vfu.requests = s.vfu.requests ∧ t.vfu.inHand = s.vfu.inHand
  front : s.frontStill → t.frontStill

theorem raiseDebt_expired {s : State} (range : s.vfu.debt ≤ 5) : SlotExpired s (raiseDebt s) := by
  obtain full | below := range.eq_or_lt
  · rw [raiseDebt_of_full full]
    exact
      { chain := (signal_passed .verifyLate s rfl).kept.1
        coil := by simp
        tables := by simp
        control := signal_mdc rfl s
        engine := by simp
        evaluation := by simp
        clock := by simp
        round := by simp
        demands := by simp
        front := signal_frontStill .verifyLate }
  · rw [raiseDebt_of_below below]
    exact
      { chain := .ofSame rfl rfl rfl rfl rfl rfl rfl rfl rfl
        coil := rfl
        tables := rfl
        control := rfl
        engine := rfl
        evaluation := rfl
        clock := rfl
        round := rfl
        demands := ⟨rfl, rfl, rfl⟩
        front := id }

theorem raiseDebt_slot (s : State) : (raiseDebt s).vfu.slot = s.vfu.slot := by
  unfold raiseDebt
  split
  · simp
  · rfl

/-! ## The obligation -/

theorem slotTimerExpires {due : Nat} {s : State} (running : s.running) (still : s.frontStill) (slot : s.vfu.slot = some due)
    (range : DebtInRange s) :
    ∃ u, exec .slotTimerExpiry s = .next u ∧ KeptChain (s.advance due) u ∧
      u.vfu.slot = some (max s.now due + s.tbs.core.slotInterval * 1000000) ∧ u.vfu.round = s.vfu.round ∧
      (s.vfu.debt < 5 → u.vfu.debt = s.vfu.debt + 1) ∧
      (s.vfu.debt = 5 → u.vfu.debt = 5 ∧ u.isLatched .verifyLate = true) ∧
      (s.calm → u.csd = s.csd ∧ u.tbs = s.tbs ∧ u.mdc = s.mdc) := by
  have restarted : KeptChain (s.advance due) (startSlot (s.advance due)) := .ofSame rfl rfl rfl rfl rfl rfl rfl rfl rfl
  have expired := raiseDebt_expired (s := startSlot (s.advance due)) range.2
  have front : (raiseDebt (startSlot (s.advance due))).frontStill := expired.front still
  obtain ⟨chain, matrix⟩ := settled_kept _ front
  have own := (event_running slotEffect running).trans (congrArg settled (slotEffect_eq slot))
  refine ⟨_, congrArg Host.Outcome.next own, (restarted.trans expired.chain).trans chain, ?_, ?_, fun below => ?_,
    fun full => ⟨?_, ?_⟩, fun calm => ?_⟩
  · rw [matrix.slot, raiseDebt_slot]
    rfl
  · rw [matrix.debt.2, expired.round]
    rfl
  · rw [matrix.debt.1, raiseDebt_of_below (s := startSlot (s.advance due)) below]
    rfl
  · rw [matrix.debt.1, raiseDebt_of_full (s := startSlot (s.advance due)) full]
    simp only [signal_frame]
    exact full
  · refine matrix.flags _ ?_
    rw [raiseDebt_of_full (s := startSlot (s.advance due)) full]
    exact signal_isLatched _ _
  · have stays : (raiseDebt (startSlot (s.advance due))).calm := by
      unfold State.calm safeComplete
      rw [expired.coil, expired.control]
      exact calm
    have stood := settled_still _ front stays
    exact ⟨stood.coil.trans expired.coil, stood.tables.trans expired.tables, stood.control.trans expired.control⟩

theorem idleLeadTimerExpires {due : Nat} {s : State} (running : s.running) (still : s.frontStill)
    (lead : s.vfu.idleLead = some due) (idle : s.ste.st = .idle) :
    ∃ u, exec .idleLeadExpiry s = .next u ∧ KeptChain (s.advance due) u ∧
      KeptMatrix { s.advance due with vfu.idleLead := none, vfu.idleMark := true } u ∧ u.vfu.idleMark = true ∧
      (s.calm → Still (s.advance due) u) := by
  have marked := idleLeadEffect_eq lead
  have chained : KeptChain (s.advance due) { s.advance due with vfu.idleLead := none, vfu.idleMark := true } :=
    .ofSame rfl rfl rfl rfl rfl rfl rfl rfl rfl
  have front : ({ s.advance due with vfu.idleLead := none, vfu.idleMark := true } : State).frontStill := still
  obtain ⟨chain, matrix⟩ := settled_kept _ front
  have notWaiting : ({ s.advance due with vfu.idleLead := none, vfu.idleMark := true } : State).ste.st ≠ .reportWait := by
    simp [idle]
  refine ⟨_, congrArg Host.Outcome.next ((event_running idleLeadEffect running).trans (congrArg settled marked)),
    chained.trans chain, matrix, (matrix.step (.inl notWaiting)).idleTimer.2, fun calm => ?_⟩
  obtain ⟨marks, coil, tables, events, control⟩ := settled_still _ front calm
  exact ⟨marks, coil, tables, events, control⟩

/-- Settles O36: each timer's expiry by its own effect, which the consequences leave as it is. -/
theorem verifyTimersExpire : Obligations.VerifyTimersExpire :=
  ⟨fun _ _ => slotTimerExpires, fun _ _ => idleLeadTimerExpires⟩

end Sys2Proof.Machine
end

section
/-! SUPPORT. What a request leaves that reaches the agent and is answered or taken in the Verify Unit's hand (R104, R105, R139, R151, R155):
nothing on the matrix side moves, and the chain side is as the request found it, but for its answer. -/

namespace Sys2Proof.Machine

/-! ## The agent does not go into service again -/

theorem react_notServing {s t : State} (q : s.frontStill) (c : s.calm) (done : ∀ r, s.mga ≠ .serving r)
    (h : react s = some t) : ∀ r, t.mga ≠ .serving r := by
  have ofSame : t.mga = s.mga → ∀ r, t.mga ≠ .serving r := fun same r => same ▸ done r
  obtain hr | ⟨v, hv, rfl | rfl⟩ | he | ha | ho | ⟨v, hv, rfl | rfl⟩ | hp | hb | ha := react_calm_cases q c h
  · exact ofSame (by simp [restartEvaluation_frame s hr])
  · exact ofSame (by simp [verifyAction_frame s hv])
  · exact ofSame (by simp [verifyAction_frame s hv])
  · unfold endHold at he
    split at he <;> cases he
    simp
  · unfold offerAnswer at ha
    split at ha <;> cases ha
    simp
  · exact ofSame (by simp [offerReport_frame s ho])
  · exact ofSame (by simp [dealAtChainEnd_frame s hv])
  · exact ofSame (by simp [dealAtChainEnd_frame s hv])
  · exact ofSame (by simp [admissionPass_frame s hp])
  · exact ofSame (by simp [startTxB_frame s hb])
  · exact ofSame (by simp [startTxA_frame s ha])

theorem settle_notServing (n : Nat) {s : State} (q : s.frontStill) (c : s.calm) (done : ∀ r, s.mga ≠ .serving r) :
    ∀ r, (settle n s).mga ≠ .serving r :=
  (settle_keeps (P := fun s => (s.frontStill ∧ s.calm) ∧ ∀ r, s.mga ≠ .serving r) (R := fun _ _ => True) (fun _ => trivial)
    (fun _ _ _ _ _ => trivial)
    (fun _ _ p h => ⟨⟨⟨(react_kept p.1.1 h).still p.1.1, (react_still p.1.1 p.1.2 h).calm p.1.2⟩,
      react_notServing p.1.1 p.1.2 p.2 h⟩, trivial⟩) n s ⟨⟨q, c⟩, done⟩).1.2

/-! ## The state in which the request has been served -/

/-- The state with a RESPONSE outbox, a state of the agent and a command in the Verify Unit's hand. -/
def State.handled (s : State) (o : Option Frame) (g : Mga) (i : Option InHand) : State :=
  { s with rtq.response := o, mga := g, vfu.inHand := i }

/-- The RESPONSE outbox once an answer has been offered to it (R151). -/
def outboxAfter (f : Frame) (o : Option Frame) : Option Frame := if o = none then some f else o

/-- The agent once its answer has been offered to the RESPONSE outbox (R151). -/
def agentAfter (f : Frame) (o : Option Frame) : Mga := if o = none then .idle else .answerWait f

/-- An answer enters an empty RESPONSE outbox, and waits for an occupied one. -/
theorem answer_handled {s : State} {req : Request} (x : Result) (serving : s.mga = .serving req) :
    answer x s = s.handled (outboxAfter (answerFrame s.lnk req x) s.rtq.response)
      (agentAfter (answerFrame s.lnk req x) s.rtq.response) s.vfu.inHand := by
  unfold answer placeAnswer State.handled outboxAfter agentAfter
  rw [serving]
  dsimp only
  split
  · next empty => rw [if_pos empty, if_pos empty]
  · next f occupied =>
    have full : s.rtq.response ≠ none := by simp [occupied]
    rw [if_neg full, if_neg full]

theorem handled_answered (s : State) (f : Frame) (i : Option InHand) :
    (s.handled (outboxAfter f s.rtq.response) (agentAfter f s.rtq.response) i).answered f := by
  unfold State.answered State.handled outboxAfter agentAfter
  cases s.rtq.response <;> simp

theorem agentAfter_notServing (f : Frame) (o : Option Frame) (r : Request) : agentAfter f o ≠ .serving r := by
  unfold agentAfter
  split <;> simp

/-- What a request leaves that is answered or taken in hand. -/
structure Handled (s : State) (h : ReqHead) (payload : List Byte) (o : Option Frame) (g : Mga) (i : Option InHand)
    (u : State) : Prop where
  served : Served s h payload u
  matrix : KeptMatrix { s.advance h.time with vfu.inHand := i } u
  still : Still { s.advance h.time with vfu.inHand := i } u
  owed : ∀ r, g = .serving r → u.mga = .serving r
  done : (∀ r, g ≠ .serving r) → ∀ r, u.mga ≠ .serving r
  answered : ∀ f, (∀ y : State, y.rtq.response = s.rtq.response → (y.handled o g i).answered f) → u.answered f

/-- A request whose service answers it or takes it in hand. -/
theorem request_handled {s : State} {h : ReqHead} (r : Reaches s h) {payload : List Byte} {d : Decoded}
    (decoded : decodeRequest payload = .ok d) (other : ∀ arg, d ≠ .command .softReset arg) {o : Option Frame} {g : Mga}
    {i : Option InHand} (effect : ∀ m w l q, serve d ((s.serving h payload).requeued m w l q) =
      ((s.serving h payload).requeued m w l q).handled o g i) :
    Handled s h payload o g i (event (requestArrives h payload) s) := by
  obtain ⟨m, w, l, q, wire, queue, e, dealt, settles⟩ := request_served r payload decoded fun _ => other
  generalize hx : ((s.serving h payload).requeued m w l q).handled o g i = x
  rw [effect, hx] at dealt
  have front : x.frontStill := by
    refine .inl fun y mem => ?_
    rw [← hx] at mem
    change y ∈ q at mem
    rw [queue] at mem
    split at mem
    · rw [List.mem_singleton.mp mem]
      simp
    · cases mem
  have calm : x.calm := by
    have before : (s.advance h.time).calm := calm_of_complete r.complete
    rw [← hx]
    exact before
  have toEnd : Kept x e ∧ Still x e ∧ e.mga = x.mga := by
    obtain rfl | dealt := dealt
    · exact ⟨.refl _, .refl _, rfl⟩
    · exact ⟨dealAtChainEnd_kept dealt, dealAtChainEnd_still dealt, by simp [dealAtChainEnd_frame x dealt]⟩
  obtain ⟨kept, stood, agent⟩ := toEnd
  have front' := kept.still front
  have calm' := stood.calm calm
  have all : Kept x (settle 4095 e) := kept.trans (settle_kept _ e front')
  have stoodAll : Still x (settle 4095 e) := stood.trans (settle_still _ e front' calm')
  have done : (∀ r, g ≠ .serving r) → ∀ r, (settle 4095 e).mga ≠ .serving r := by
    intro notServing
    refine settle_notServing _ front' calm' ?_
    rw [agent, ← hx]
    exact notServing
  rw [settles]
  generalize settle 4095 e = u at all stoodAll done
  have chain := all.1
  have matrix : KeptMatrix { s.advance h.time with vfu.inHand := i } x := by
    rw [← hx]
    exact .ofSame rfl rfl rfl rfl rfl rfl rfl rfl rfl
  have unheld : x.rtq.responseHeld = false := by
    rw [← hx]
    exact r.unheld
  refine
    { served := ?served
      matrix := matrix.trans all.2
      still := ?still
      owed := fun req serving => chain.agentServing unheld req (by rw [← hx]; exact serving)
      done := done
      answered := fun f onItsWay => chain.answers unheld f (by rw [← hx]; exact onItsWay _ rfl) }
  case still =>
    rw [← hx] at stoodAll
    exact ⟨stoodAll.marks, stoodAll.coil, stoodAll.tables, stoodAll.events, stoodAll.control⟩
  case served =>
    rw [← hx] at chain
    exact
      { pending := chain.pending
        now := chain.now
        straps := chain.straps
        links := chain.links
        marks := chain.marks
        sending := chain.sending
        slot := chain.slot
        own := fun notAll => by
          have empty : q = [] := queue.trans (if_neg notAll)
          exact List.suffix_nil.mp (empty ▸ chain.forward)
        copy := fun toAll up => ((chain.forwardKept (.inl up)).1.trans queue).trans (if_pos toAll)
        back := chain.back
        reports := chain.reports
        echoes := chain.echoes }

end Sys2Proof.Machine
end

section
/-! PROOF. VERIFY_ALL and VERIFY_BANK are taken in hand or refused (R104, R105, R155; O43). -/

namespace Sys2Proof.Machine

/-- The answer of a request that is answered at once, with nothing else done. -/
structure Answered (s : State) (h : ReqHead) (payload : List Byte) (x : Result) (u : State) : Prop where
  served : Served s h payload u
  answers : u.answers s h payload x
  matrix : KeptMatrix (s.advance h.time) u
  still : Still (s.advance h.time) u

theorem request_answered {s : State} {h : ReqHead} (r : Reaches s h) {payload : List Byte} {d : Decoded}
    (decoded : decodeRequest payload = .ok d) (other : ∀ arg, d ≠ .command .softReset arg) {x : Result}
    (effect : ∀ m w l q, serve d ((s.serving h payload).requeued m w l q) =
      answer x ((s.serving h payload).requeued m w l q)) :
    Answered s h payload x (event (requestArrives h payload) s) := by
  obtain ⟨frame, hf⟩ : ∃ f, f = answerFrame s.lnk { tag := h.tag, payload := payload } x := ⟨_, rfl⟩
  have handled := request_handled r decoded other (o := outboxAfter frame s.rtq.response)
    (g := agentAfter frame s.rtq.response) (i := s.vfu.inHand) fun m w l q => by
      rw [effect, answer_handled x rfl, hf]
      rfl
  refine ⟨handled.served, ⟨handled.answered _ fun y same => ?_, handled.done (agentAfter_notServing _ _)⟩, handled.matrix,
    handled.still⟩
  have offered := handled_answered y frame s.vfu.inHand
  rw [same] at offered
  rwa [← hf]

theorem verifyAllTaken {h : ReqHead} {s : State} (r : Reaches s h) :
    let pl := commandPayload .verifyAll []
    let e := { s.advance h.time with vfu.inHand := some (.all 0) }
    ∃ u, exec (.verifyAll h) s = .next u ∧ Served s h pl u ∧ u.owes h pl ∧ KeptMatrix e u ∧ Still e u := by
  have handled := request_handled r (payload := commandPayload .verifyAll []) (d := .command .verifyAll []) rfl (by simp)
    (o := s.rtq.response) (i := some (.all 0)) fun _ _ _ _ => rfl
  exact ⟨_, rfl, handled.served, handled.owed _ rfl, handled.matrix, handled.still⟩

/-! ## The checks of VERIFY_BANK, in their order (R104) -/

theorem serveVerifyBank_beyond {bank : Byte} {s : State} (beyond : 6 ≤ bank.toNat) :
    serveVerifyBank bank s = answer (.nak .range) s := dif_neg (Nat.not_lt.mpr beyond)

theorem serveVerifyBank_bank {bank : Byte} {b : Bank} (names : bank.toNat = b.val) (s : State) :
    serveVerifyBank bank s =
      if s.vfu.inRound b then answer (.nak .already) s
      else if s.vfu.debt = -3 then answer (.nak .limit) s else { s with vfu.inHand := some (.bank b) } := by
  have within : bank.toNat < 6 := names ▸ b.isLt
  have same : (⟨bank.toNat, within⟩ : Bank) = b := Fin.ext names
  unfold serveVerifyBank
  rw [dif_pos within, same]

section
variable {h : ReqHead} {bank : Byte} {s : State} (r : Reaches s h)
include r

/-- A VERIFY_BANK that is refused. -/
theorem verifyBank_refused {x : Result} (effect : ∀ y : State, y.vfu = s.vfu → serveVerifyBank bank y = answer x y) :
    Answered s h (commandPayload .verifyBank [bank]) x (event (requestArrives h (commandPayload .verifyBank [bank])) s) :=
  request_answered r (d := .command .verifyBank [bank]) rfl (by simp) fun _ _ _ _ => effect _ rfl

theorem verifyBank_beyond (beyond : 6 ≤ bank.toNat) : Answered s h (commandPayload .verifyBank [bank]) (.nak .range)
    (event (requestArrives h (commandPayload .verifyBank [bank])) s) :=
  verifyBank_refused r fun _ _ => serveVerifyBank_beyond beyond

variable {b : Bank} (names : bank.toNat = b.val)
include names

theorem verifyBank_already (already : s.vfu.round.getLsbD b.val = true) :
    Answered s h (commandPayload .verifyBank [bank]) (.nak .already)
      (event (requestArrives h (commandPayload .verifyBank [bank])) s) :=
  verifyBank_refused r fun y same => by
    rw [serveVerifyBank_bank names, if_pos]
    rw [same]
    exact already

variable (fresh : s.vfu.round.getLsbD b.val = false)
include fresh

theorem verifyBank_limit (limit : s.vfu.debt = -3) : Answered s h (commandPayload .verifyBank [bank]) (.nak .limit)
    (event (requestArrives h (commandPayload .verifyBank [bank])) s) :=
  verifyBank_refused r fun y same => by
    rw [serveVerifyBank_bank names, same, Vfu.inRound, fresh, if_neg Bool.false_ne_true, if_pos limit]

theorem verifyBank_taken (debt : s.vfu.debt ≠ -3) :
    Handled s h (commandPayload .verifyBank [bank]) s.rtq.response
      (.serving { tag := h.tag, payload := commandPayload .verifyBank [bank] }) (some (.bank b))
      (event (requestArrives h (commandPayload .verifyBank [bank])) s) := by
  have taken : ∀ y : State, y.vfu = s.vfu → serveVerifyBank bank y = { y with vfu.inHand := some (.bank b) } := by
    intro y same
    rw [serveVerifyBank_bank names, same, Vfu.inRound, fresh, if_neg Bool.false_ne_true, if_neg debt]
  exact request_handled r (d := .command .verifyBank [bank]) rfl (by simp) fun _ _ _ _ => taken _ rfl

end

theorem verifyBank_served {h : ReqHead} {s : State} (r : Reaches s h) (bank : Byte) :
    Served s h (commandPayload .verifyBank [bank]) (event (requestArrives h (commandPayload .verifyBank [bank])) s) := by
  by_cases within : bank.toNat < 6
  · have names : bank.toNat = (⟨bank.toNat, within⟩ : Bank).val := rfl
    cases round : s.vfu.round.getLsbD bank.toNat with
    | true => exact (verifyBank_already r names round).served
    | false =>
      by_cases limit : s.vfu.debt = -3
      · exact (verifyBank_limit r names round limit).served
      · exact (verifyBank_taken r names round limit).served
  · exact (verifyBank_beyond r (Nat.not_lt.mp within)).served

/-- Settles O43: VERIFY_ALL, and each outcome of VERIFY_BANK's checks. -/
theorem verifyCommandsAreTakenInHand : Obligations.VerifyCommandsAreTakenInHand := by
  refine ⟨fun h s r => verifyAllTaken r, fun h bank s r => ⟨_, rfl, verifyBank_served r bank, fun beyond => ?_, fun b names =>
    ⟨fun already => ?_, fun fresh limit => ?_, fun fresh debt => ?_⟩⟩⟩
  · have refused := verifyBank_beyond r beyond
    exact ⟨refused.answers, refused.matrix, refused.still⟩
  · have refused := verifyBank_already r names already
    exact ⟨refused.answers, refused.matrix, refused.still⟩
  · have refused := verifyBank_limit r names fresh limit
    exact ⟨refused.answers, refused.matrix, refused.still⟩
  · have taken := verifyBank_taken r names fresh debt
    exact ⟨taken.owed _ rfl, taken.matrix.demands.2, taken.matrix, taken.still⟩

end Sys2Proof.Machine
end

section
/-! PROOF. What the Verify Unit does when it is asked (R92, R100 to R105; O33): the demands in the order of R100's table, and the verifies
that its timers' expiries start. -/

namespace Sys2Proof.Machine

/-! ## The choice (R100 to R103) -/

/-- The lowest-numbered bank that passes a test. -/
theorem find_bank_eq_some {ok : Bank → Bool} {b : Bank} (passes : ok b = true) (lowest : ∀ c, c < b → ok c ≠ true) :
    allBanks.find? ok = some b := by
  refine List.find?_eq_some_iff_getElem.mpr ⟨passes, b.val, by simp [allBanks], by simp [allBanks], fun j below => ?_⟩
  have within : j < 6 := below.trans b.isLt
  simpa [allBanks] using lowest ⟨j, within⟩ below

theorem find_bank_eq_none {ok : Bank → Bool} (none_passes : ∀ b, ok b ≠ true) : allBanks.find? ok = none :=
  List.find?_eq_none.mpr fun b _ => none_passes b

theorem isRunOrSafe_iff {m : Mode} : m.isRunOrSafe = true ↔ m = .run ∨ m.isSafe = true := by
  cases m <;> simp [Mode.isRunOrSafe, Mode.isSafe]

theorem ordinaryAllowed_iff {s : State} :
    ordinaryAllowed s = true ↔ 1 ≤ s.vfu.debt ∧ s.ste.st ≠ .muting ∧ s.ste.st ≠ .actuating := by
  simp [ordinaryAllowed, and_assoc]

theorem pullInAllowed_iff {s : State} :
    pullInAllowed s = true ↔ -3 < s.vfu.debt ∧ s.vfu.debt ≤ 0 ∧ s.vfu.idleMark = true := by
  simp [pullInAllowed, and_assoc]

section
variable {s : State}

theorem verifyChoice_command {h : InHand} (hand : s.vfu.inHand = some h) : verifyChoice s = some (.command, h.nextBank) := by
  unfold verifyChoice
  rw [hand]

theorem verifyChoice_recovery (hand : s.vfu.inHand = none) {b : Bank} {l : List Bank} (requests : s.vfu.requests = b :: l) :
    verifyChoice s = some (.recovery, b) := by
  unfold verifyChoice
  rw [hand, requests]

variable (hand : s.vfu.inHand = none) (requests : s.vfu.requests = [])
include hand requests

/-- With no command in hand and no request of the recovery, the last three lines of R100's table. -/
theorem verifyChoice_timed : verifyChoice s =
    if !s.mdc.mode.isRunOrSafe then none
    else if s.vfu.debt = 5 then (lowestOpen s.vfu).map (fun b => (.debtForced, b))
    else if ordinaryAllowed s then (lowestIdle s).map (fun b => (.ordinary, b))
    else if pullInAllowed s then (lowestIdle s).map (fun b => (.pullIn, b))
    else none := by
  unfold verifyChoice
  rw [hand, requests]

theorem verifyChoice_resting (resting : ¬(s.mdc.mode = .run ∨ s.mdc.mode.isSafe = true)) : verifyChoice s = none := by
  rw [verifyChoice_timed hand requests, if_pos]
  simpa using mt isRunOrSafe_iff.mp resting

variable (runs : s.mdc.mode = .run ∨ s.mdc.mode.isSafe = true)
include runs

theorem verifyChoice_full (full : s.vfu.debt = 5) :
    verifyChoice s = (lowestOpen s.vfu).map (fun b => (.debtForced, b)) := by
  rw [verifyChoice_timed hand requests, if_neg (by simp [isRunOrSafe_iff.mpr runs]), if_pos full]

variable (below : s.vfu.debt ≠ 5)
include below

theorem verifyChoice_owed (owed : ordinaryAllowed s = true) :
    verifyChoice s = (lowestIdle s).map (fun b => (.ordinary, b)) := by
  rw [verifyChoice_timed hand requests, if_neg (by simp [isRunOrSafe_iff.mpr runs]), if_neg below, if_pos owed]

theorem verifyChoice_offered (paid : ordinaryAllowed s ≠ true) (offered : pullInAllowed s = true) :
    verifyChoice s = (lowestIdle s).map (fun b => (.pullIn, b)) := by
  rw [verifyChoice_timed hand requests, if_neg (by simp [isRunOrSafe_iff.mpr runs]), if_neg below, if_neg paid,
    if_pos offered]

theorem verifyChoice_none
    (nothing : (ordinaryAllowed s ≠ true ∧ pullInAllowed s ≠ true) ∨ lowestIdle s = none) : verifyChoice s = none := by
  rw [verifyChoice_timed hand requests, if_neg (by simp [isRunOrSafe_iff.mpr runs]), if_neg below]
  obtain ⟨paid, unoffered⟩ | noBank := nothing
  · rw [if_neg paid, if_neg unoffered]
  · simp [noBank]

end

/-! ## The take of a bank (R92, R100) -/

section
variable {s : State} {b : Bank} {k : VerifyKind}

theorem verifyAction_of_free (free : s.vfu.activity = .free) :
    verifyAction s = (verifyChoice s).map (fun x => takeBank x.1 x.2 s) := by
  unfold verifyAction
  rw [free]

variable (free : s.vfu.activity = .free) (chosen : verifyChoice s = some (k, b))
include free chosen

/-- An idle bank that is chosen is verified at once. -/
theorem verifyAction_starts (idle : s.csd.bankIdle b s.now = true) :
    verifyAction s = some { s with vfu.activity := .verifying b k (s.now + 1500) } := by
  rw [verifyAction_of_free free, chosen]
  exact congrArg some (if_pos idle)

/-- A bank that is chosen and not idle is claimed. -/
theorem verifyAction_claims (busy : s.csd.bankIdle b s.now = false) :
    verifyAction s = some { s with vfu.activity := .claimed b k } := by
  rw [verifyAction_of_free free, chosen]
  exact congrArg some (if_neg (by simp [busy]))

end

theorem verifyAction_waits {s : State} (free : s.vfu.activity = .free) (none_chosen : verifyChoice s = none) :
    verifyAction s = none := by
  rw [verifyAction_of_free free, none_chosen]
  rfl

theorem verifyAction_claimed {s : State} {b : Bank} {k : VerifyKind} (claimed : s.vfu.activity = .claimed b k) :
    verifyAction s = if s.csd.bankIdle b s.now then some (startVerify k b s) else none := by
  unfold verifyAction
  rw [claimed]

/-- A bank that R101 may take: not in the round, and idle. -/
theorem lowestIdle_eq_some {s : State} {b : Bank} (open_ : s.vfu.round.getLsbD b.val = false)
    (idle : s.csd.bankIdle b s.now = true)
    (lowest : ∀ c : Bank, c < b → ¬(s.vfu.round.getLsbD c.val = false ∧ s.csd.bankIdle c s.now = true)) :
    lowestIdle s = some b :=
  find_bank_eq_some (by rw [Vfu.inRound, open_, idle]; rfl) fun c below passes =>
    lowest c below (by simpa [Vfu.inRound] using passes)

theorem lowestIdle_eq_none {s : State}
    (noBank : ∀ b : Bank, ¬(s.vfu.round.getLsbD b.val = false ∧ s.csd.bankIdle b s.now = true)) : lowestIdle s = none :=
  find_bank_eq_none fun b passes => noBank b (by simpa [Vfu.inRound] using passes)

/-- A FREE unit with nothing in hand and nothing requested, in RUN or SAFE, below a debt of 5, where an ordinary verify is allowed and
a bank is there for it. -/
theorem verifyAction_ordinary {s : State} {b : Bank} (free : s.vfu.activity = .free) (hand : s.vfu.inHand = none)
    (requests : s.vfu.requests = []) (runs : s.mdc.mode = .run ∨ s.mdc.mode.isSafe = true) (below : s.vfu.debt ≠ 5)
    (owed : 1 ≤ s.vfu.debt ∧ s.ste.st ≠ .muting ∧ s.ste.st ≠ .actuating) (bank : lowestIdle s = some b)
    (idle : s.csd.bankIdle b s.now = true) :
    verifyAction s = some { s with vfu.activity := .verifying b .ordinary (s.now + 1500) } :=
  verifyAction_starts free
    (by rw [verifyChoice_owed hand requests runs below (ordinaryAllowed_iff.mpr owed), bank]; rfl) idle

theorem verifyAction_pullIn {s : State} {b : Bank} (free : s.vfu.activity = .free) (hand : s.vfu.inHand = none)
    (requests : s.vfu.requests = []) (runs : s.mdc.mode = .run ∨ s.mdc.mode.isSafe = true)
    (offered : -3 < s.vfu.debt ∧ s.vfu.debt ≤ 0 ∧ s.vfu.idleMark = true) (bank : lowestIdle s = some b)
    (idle : s.csd.bankIdle b s.now = true) :
    verifyAction s = some { s with vfu.activity := .verifying b .pullIn (s.now + 1500) } := by
  have below : s.vfu.debt ≠ 5 := by omega
  have paid : ordinaryAllowed s ≠ true := fun owed => by
    have := (ordinaryAllowed_iff.mp owed).1
    omega
  exact verifyAction_starts free
    (by rw [verifyChoice_offered hand requests runs below paid (pullInAllowed_iff.mpr offered), bank]; rfl) idle

/-! ## A timer's expiry starts a verify (R97 to R99, R101) -/

/-- The restart of the evaluation does not change what the Verify Unit does. -/
theorem verifyAction_reevaluated {s v : State} (action : verifyAction s = some v) :
    ∃ w, verifyAction s.reevaluated = some w ∧ w.vfu.activity = v.vfu.activity := by
  obtain ⟨x, same⟩ := reevaluated_eq s
  rw [same]
  have takes : ∀ k b, (takeBank k b { s with rev.evaluation := x }).vfu.activity = (takeBank k b s).vfu.activity := by
    intro k b
    unfold takeBank
    split <;> rfl
  unfold verifyAction at action ⊢
  dsimp only
  split at action
  · obtain ⟨y, chosen, rfl⟩ := Option.map_eq_some_iff.mp action
    exact ⟨_, Option.map_eq_some_iff.mpr ⟨y, chosen, rfl⟩, takes _ _⟩
  · split at action
    · next idle =>
      cases action
      exact ⟨_, if_pos idle, rfl⟩
    · cases action
  · cases action

/-- In a calm part the Verify Unit's start comes before all other consequences but a restart of the evaluation, and it lasts. -/
theorem settled_starts {s v : State} (q : s.frontStill) (calm : s.calm) (action : verifyAction s = some v) {b : Bank}
    {k : VerifyKind} {due : Nat} (starts : v.vfu.activity = .verifying b k due) :
    (settled s).vfu.activity = .verifying b k due := by
  have first : ∀ (n : Nat) (x : State), x.frontStill → x.csd.passDue = false → restartEvaluation x = none →
      (∃ w, verifyAction x = some w ∧ w.vfu.activity = v.vfu.activity) →
      (settle (n + 1) x).vfu.activity = .verifying b k due := by
    rintro n x still undue fresh ⟨w, action, same⟩
    have reacts : react x = some w := by simp [react, fresh, makePass, undue, chooseVerify_of_still still, action]
    rw [settle, reacts]
    exact (settle_kept n w ((react_kept still reacts).still still)).2.verifying b k due (same.trans starts)
  obtain ⟨fresh, -⟩ | ⟨-, -, -, restarts, same⟩ := reevaluated_cases s
  · exact first 4095 s q calm.1 fresh ⟨v, action, rfl⟩
  · have reacts : react s = some s.reevaluated := by rw [same]; simp [react, restarts]
    have later := first 4094 s.reevaluated ((react_kept q reacts).still q) (by rw [same]; exact calm.1)
      (reevaluated_fresh s) (verifyAction_reevaluated action)
    unfold settled Config.settleFuel
    rw [settle, reacts]
    exact later

/-- The state after a slot expiry that finds the debt below 5. -/
def State.slotRaised (s : State) (due : Nat) : State := { startSlot (s.advance due) with vfu.debt := s.vfu.debt + 1 }

/-- The state after the idle lead's expiry. -/
def State.leadMarked (s : State) (due : Nat) : State := { s.advance due with vfu.idleLead := none, vfu.idleMark := true }

theorem slotExpiry_starts {due : Nat} {b : Bank} {s : State} (running : s.running) (still : s.frontStill) (calm : s.calm)
    (slot : s.vfu.slot = some due) (free : s.vfu.activity = .free) (hand : s.vfu.inHand = none) (requests : s.vfu.requests = [])
    (runs : s.mdc.mode = .run ∨ s.mdc.mode.isSafe = true) (paid : 0 ≤ s.vfu.debt) (below : s.vfu.debt < 4)
    (muting : s.ste.st ≠ .muting) (actuating : s.ste.st ≠ .actuating) (open_ : s.vfu.round.getLsbD b.val = false)
    (idle : s.csd.bankIdle b (max s.now due) = true)
    (lowest : ∀ c : Bank, c < b → s.vfu.round.getLsbD c.val = true ∨ s.csd.bankIdle c (max s.now due) = false) :
    ∃ u, exec .slotTimerExpiry s = .next u ∧ u.vfu.activity = .verifying b .ordinary (max s.now due + 1500) := by
  have raised : slotEffect s = s.slotRaised due :=
    (slotEffect_eq slot).trans (raiseDebt_of_below (s := startSlot (s.advance due)) (show s.vfu.debt < 5 by omega))
  have bank : lowestIdle (s.slotRaised due) = some b :=
    lowestIdle_eq_some open_ idle fun c less ready => by
      obtain taken | busy := lowest c less
      · exact Bool.false_ne_true (ready.1.symm.trans taken)
      · exact Bool.false_ne_true (busy.symm.trans ready.2)
  have action := verifyAction_ordinary (s := s.slotRaised due) free hand requests runs
    (show s.vfu.debt + 1 ≠ 5 by omega) ⟨show 1 ≤ s.vfu.debt + 1 by omega, muting, actuating⟩ bank idle
  exact ⟨_, congrArg Host.Outcome.next ((event_running slotEffect running).trans (congrArg settled raised)),
    settled_starts (s := s.slotRaised due) still calm action rfl⟩

theorem idleLeadExpiry_starts {due : Nat} {b : Bank} {s : State} (running : s.running) (still : s.frontStill) (calm : s.calm)
    (lead : s.vfu.idleLead = some due) (free : s.vfu.activity = .free) (hand : s.vfu.inHand = none)
    (requests : s.vfu.requests = []) (runs : s.mdc.mode = .run ∨ s.mdc.mode.isSafe = true) (above : -3 < s.vfu.debt)
    (paid : s.vfu.debt ≤ 0) (open_ : s.vfu.round.getLsbD b.val = false) (idle : s.csd.bankIdle b (max s.now due) = true)
    (lowest : ∀ c : Bank, c < b → s.vfu.round.getLsbD c.val = true ∨ s.csd.bankIdle c (max s.now due) = false) :
    ∃ u, exec .idleLeadExpiry s = .next u ∧ u.vfu.activity = .verifying b .pullIn (max s.now due + 1500) := by
  have bank : lowestIdle (s.leadMarked due) = some b :=
    lowestIdle_eq_some open_ idle fun c less ready => by
      obtain taken | busy := lowest c less
      · exact Bool.false_ne_true (ready.1.symm.trans taken)
      · exact Bool.false_ne_true (busy.symm.trans ready.2)
  have action := verifyAction_pullIn (s := s.leadMarked due) free hand requests runs
    ⟨above, paid, rfl⟩ bank idle
  have marked : idleLeadEffect s = s.leadMarked due := idleLeadEffect_eq lead
  exact ⟨_, congrArg Host.Outcome.next ((event_running idleLeadEffect running).trans (congrArg settled marked)),
    settled_starts (s := s.leadMarked due) still calm action rfl⟩

/-! ## The obligation -/

/-- What a FREE unit does that has nothing in hand and nothing requested. -/
theorem verifyAction_timed {s : State} (free : s.vfu.activity = .free) (hand : s.vfu.inHand = none)
    (requests : s.vfu.requests = []) :
    let starts := fun k b => verifyAction s = some { s with vfu.activity := .verifying b k (s.now + 1500) }
    let takes := fun k b => (s.csd.bankIdle b s.now = true → starts k b) ∧
      (s.csd.bankIdle b s.now = false → verifyAction s = some { s with vfu.activity := .claimed b k })
    let lowest := fun (ok : Bank → Prop) (b : Bank) => ok b ∧ ∀ c : Bank, c < b → ¬ok c
    let open_ := fun b : Bank => s.vfu.round.getLsbD b.val = false
    let ready := fun b : Bank => open_ b ∧ s.csd.bankIdle b s.now = true
    let runs := s.mdc.mode = .run ∨ s.mdc.mode.isSafe = true
    let owed := 1 ≤ s.vfu.debt ∧ s.ste.st ≠ .muting ∧ s.ste.st ≠ .actuating
    let offered := -3 < s.vfu.debt ∧ s.vfu.debt ≤ 0 ∧ s.vfu.idleMark = true
    (¬runs → verifyAction s = none) ∧
      (runs → s.vfu.debt = 5 → (∀ b, lowest open_ b → takes .debtForced b) ∧ ((∀ b, ¬open_ b) → verifyAction s = none)) ∧
      (runs → s.vfu.debt ≠ 5 → (owed → ∀ b, lowest ready b → starts .ordinary b) ∧
        (offered → ∀ b, lowest ready b → starts .pullIn b) ∧
        ((¬owed ∧ ¬offered) ∨ (∀ b, ¬ready b) → verifyAction s = none)) := by
  intro starts takes lowest open_ ready runs owed offered
  have noneOpen : ∀ v : Vfu, (∀ b : Bank, ¬v.round.getLsbD b.val = false) → lowestOpen v = none := fun v closed =>
    find_bank_eq_none fun b passes => closed b (by simpa [Vfu.inRound] using passes)
  refine ⟨fun rests => verifyAction_waits free (verifyChoice_resting hand requests rests), fun run full => ⟨fun b low => ?_,
    fun closed => ?_⟩, fun run below => ⟨fun due b low => ?_, fun due b low => ?_, fun nothing => ?_⟩⟩
  · have bank : lowestOpen s.vfu = some b :=
      find_bank_eq_some (by rw [Vfu.inRound, low.1]; rfl) fun c less passes =>
        low.2 c less (by simpa [open_, Vfu.inRound] using passes)
    have chosen : verifyChoice s = some (.debtForced, b) := by rw [verifyChoice_full hand requests run full, bank]; rfl
    exact ⟨verifyAction_starts free chosen, verifyAction_claims free chosen⟩
  · exact verifyAction_waits free (by rw [verifyChoice_full hand requests run full, noneOpen _ closed]; rfl)
  · exact verifyAction_ordinary free hand requests run below due (lowestIdle_eq_some low.1.1 low.1.2 low.2) low.1.2
  · exact verifyAction_pullIn free hand requests run due (lowestIdle_eq_some low.1.1 low.1.2 low.2) low.1.2
  · refine verifyAction_waits free (verifyChoice_none hand requests run below ?_)
    exact nothing.imp (fun ⟨paid, unoffered⟩ => ⟨mt ordinaryAllowed_iff.mp paid, mt pullInAllowed_iff.mp unoffered⟩)
      lowestIdle_eq_none

/-- Settles O33: the lines of R100's table one after another, and the two timers. -/
theorem verifyChoiceFollowsThePriorities : Obligations.VerifyChoiceFollowsThePriorities := by
  refine ⟨fun s => ⟨fun b k due verifying => ?_, fun b k claimed => ⟨fun idle => ?_, fun busy => ?_⟩,
    fun free => ⟨fun b hand => ?_, fun hand => ⟨fun b l requests => ?_, verifyAction_timed free hand⟩⟩⟩,
    fun due b s => slotExpiry_starts, fun due b s => idleLeadExpiry_starts⟩
  · unfold verifyAction
    rw [verifying]
  · exact (verifyAction_claimed claimed).trans (if_pos idle)
  · exact (verifyAction_claimed claimed).trans (if_neg (by simp [busy]))
  · have chosen : verifyChoice s = some (.command, b) := by
      obtain hand | hand | hand := hand <;> exact verifyChoice_command hand
    exact ⟨verifyAction_starts free chosen, verifyAction_claims free chosen⟩
  · have chosen := verifyChoice_recovery hand requests
    exact ⟨verifyAction_starts free chosen, verifyAction_claims free chosen⟩

end Sys2Proof.Machine
end

section
/-! SUPPORT. What a completed verify leaves (R87, R91, R94 to R96, R98, R104, R105, R116, R122): its requester and, at a mismatch, the Mode
Controller act after the reading, and none of them takes back what it has recorded, signalled or paid. -/

namespace Sys2Proof.Machine

/-! ## What the Mode Controller carries on -/

/-- From `s` to `t` stands what a reading has recorded: positions, the pass that is due, debt and round, flags and trip requests; and the
supply latch list gains no entry. -/
structure ReadingKept (s t : State) : Prop where
  recorded : t.csd.recorded = s.csd.recorded
  due : s.csd.passDue = true → t.csd.passDue = true
  paid : t.vfu.debt = s.vfu.debt ∧ t.vfu.round = s.vfu.round
  latch : ∀ x ∈ t.csd.latch, x ∈ s.csd.latch
  latched : ∀ f, s.isLatched f = true → t.isLatched f = true
  trips : t.mdc.trips = s.mdc.trips

/-- The agent, its answer in the RESPONSE outbox, and the command in the Verify Unit's hand stand. -/
structure AgentKept (s t : State) : Prop where
  agent : t.mga = s.mga
  outbox : t.rtq.response = s.rtq.response
  held : t.rtq.responseHeld = s.rtq.responseHeld
  inHand : t.vfu.inHand = s.vfu.inHand

/-- A part of the Mode Controller's work that leaves both alone. -/
structure Carried (s t : State) : Prop where
  reading : ReadingKept s t
  agent : AgentKept s t

theorem ReadingKept.trans {s t u : State} (h : ReadingKept s t) (g : ReadingKept t u) : ReadingKept s u :=
  ⟨g.recorded.trans h.recorded, g.due ∘ h.due, ⟨g.paid.1.trans h.paid.1, g.paid.2.trans h.paid.2⟩,
    fun x m => h.latch x (g.latch x m), fun f m => g.latched f (h.latched f m), g.trips.trans h.trips⟩

theorem Carried.refl (s : State) : Carried s s :=
  ⟨⟨rfl, id, ⟨rfl, rfl⟩, fun _ => id, fun _ => id, rfl⟩, ⟨rfl, rfl, rfl, rfl⟩⟩

theorem Carried.trans {s t u : State} (h : Carried s t) (g : Carried t u) : Carried s u where
  reading := h.reading.trans g.reading
  agent := ⟨g.agent.agent.trans h.agent.agent, g.agent.outbox.trans h.agent.outbox, g.agent.held.trans h.agent.held,
    g.agent.inHand.trans h.agent.inHand⟩

/-- What a reading has recorded stands where the position table, the latch list, the pass, the debt, the flags and the trips do. -/
theorem ReadingKept.ofSame {s t : State} (same : t.csd.recorded = s.csd.recorded ∧ t.csd.passDue = s.csd.passDue ∧
    t.csd.latch = s.csd.latch ∧ t.vfu.debt = s.vfu.debt ∧ t.vfu.round = s.vfu.round ∧ t.evu.latched = s.evu.latched ∧
    t.mdc.trips = s.mdc.trips) : ReadingKept s t := by
  obtain ⟨recorded, due, latch, debt, round, flags, trips⟩ := same
  refine ⟨recorded, fun h => due.trans h, ⟨debt, round⟩, fun x m => by rwa [latch] at m, fun f h => ?_, trips⟩
  rwa [State.isLatched, flags]

theorem setMode_carried (m : Mode) (s : State) : Carried s (setMode m s) :=
  ⟨.ofSame (by simp), ⟨by simp, by simp, by simp, by simp⟩⟩

/-- A signal that is no trip flag's. -/
theorem signal_carried {f : Flag} (noTrip : f.trip = none) (s : State) : Carried s (signal f s) :=
  ⟨⟨by simp, by simp, by simp, by simp, fun g => signal_flags f s g.bit, by rw [signal_mdc noTrip]⟩,
    ⟨by simp, by simp, by simp, by simp⟩⟩

theorem stopVerifyTimers_carried (s : State) : Carried s (stopVerifyTimers s) :=
  ⟨.ofSame ⟨rfl, rfl, rfl, rfl, rfl, rfl, rfl⟩, ⟨rfl, rfl, rfl, rfl⟩⟩

theorem startSlot_carried (s : State) : Carried s (startSlot s) :=
  ⟨.ofSame ⟨rfl, rfl, rfl, rfl, rfl, rfl, rfl⟩, ⟨rfl, rfl, rfl, rfl⟩⟩

theorem startIdleLead_carried (s : State) : Carried s (startIdleLead s) := by
  unfold startIdleLead
  split <;> exact ⟨.ofSame ⟨rfl, rfl, rfl, rfl, rfl, rfl, rfl⟩, ⟨rfl, rfl, rfl, rfl⟩⟩

/-- A claim that is released makes a pass due. -/
theorem releaseClaim_carried (k : VerifyKind) (s : State) : Carried s (releaseClaim k s) := by
  unfold releaseClaim
  repeat' split
  · exact ⟨⟨rfl, fun _ => rfl, ⟨rfl, rfl⟩, fun _ => id, fun _ => id, rfl⟩, ⟨rfl, rfl, rfl, rfl⟩⟩
  · exact .refl s
  · exact .refl s

theorem orphanVerify_carried (k : VerifyKind) (s : State) : Carried s (orphanVerify k s) := by
  unfold orphanVerify
  repeat' split
  · exact ⟨.ofSame ⟨rfl, rfl, rfl, rfl, rfl, rfl, rfl⟩, ⟨rfl, rfl, rfl, rfl⟩⟩
  · exact .refl s
  · exact .refl s

theorem withdrawRecovery_carried (s : State) : Carried s (withdrawRecovery s) := by
  have emptied : Carried s { s with vfu.requests := [] } :=
    ⟨.ofSame ⟨rfl, rfl, rfl, rfl, rfl, rfl, rfl⟩, ⟨rfl, rfl, rfl, rfl⟩⟩
  exact (emptied.trans (releaseClaim_carried .recovery _)).trans (orphanVerify_carried .recovery _)

theorem startIdleLeadIf_carried (s : State) : Carried s (if s.ste.st = .idle then startIdleLead s else s) := by
  split
  · exact startIdleLead_carried s
  · exact .refl s

theorem verifyAtSafe_carried (fromEntry : Bool) (s : State) : Carried s (verifyAtSafe fromEntry s) := by
  refine (withdrawRecovery_carried s).trans ?_
  unfold verifyAtSafe
  dsimp only
  split
  · exact (startSlot_carried _).trans (startIdleLeadIf_carried _)
  · exact .refl _

/-- Of the Verify Unit only the idle-lead timer and its mark change. -/
def IdleTimed (s t : State) : Prop := ∃ l m, t.vfu = { s.vfu with idleLead := l, idleMark := m }

theorem IdleTimed.ofSame {s t : State} (same : t.vfu = s.vfu) : IdleTimed s t := ⟨s.vfu.idleLead, s.vfu.idleMark, same⟩

theorem enterIdle_timed {s t : State} (same : t.vfu = s.vfu) : IdleTimed s (enterIdle t) := by
  obtain ⟨l, m, idle⟩ := enterIdle_eq t
  rw [idle, IdleTimed, ← same]
  exact ⟨l, m, rfl⟩

theorem buildReport_timed (entries : List RouteEntry) {s t : State} (same : t.vfu = s.vfu) :
    IdleTimed s (buildReport entries t) := by
  by_cases reports : ∃ i o, t.ste.ident = some i ∧ t.ste.outcome = some o ∧ o ≠ .noPath
  · obtain ⟨i, o, ident, outcome, reports⟩ := reports
    by_cases room : t.ste.st = .reportWait ∧ t.rtq.report = none
    · rw [buildReport_placed entries ident outcome reports room.1 room.2]
      exact enterIdle_timed same
    · rw [buildReport_pending entries ident outcome reports (not_and_or.mp room)]
      exact .ofSame same
  · unfold buildReport
    split
    · exact .ofSame same
    · next i o other ident outcome => exact absurd ⟨i, o, ident, outcome, other⟩ reports
    · exact .ofSame same

theorem finishStep_timed (o : StepOutcome) {s t : State} (same : t.vfu = s.vfu) : IdleTimed s (finishStep o t) := by
  unfold finishStep requestRoutes
  dsimp only
  repeat' split
  exacts [enterIdle_timed same, enterIdle_timed same, buildReport_timed [] same, .ofSame same, .ofSame same,
    buildReport_timed [] same]

theorem endStep_timed (o : StepOutcome) (s : State) : IdleTimed s (endStep o s) := by
  rw [endStep_eq]
  refine finishStep_timed o ?_
  unfold recordOutcome markEnd recordEnd
  split <;> simp

theorem abandonForSafe_carried (s : State) : Carried s (abandonForSafe s) := by
  unfold abandonForSafe
  split
  · obtain ⟨latched, held, outbox⟩ := endStep_keeps .abandonedSafe s
    obtain ⟨l, m, timed⟩ := endStep_timed .abandonedSafe s
    exact ⟨⟨by simp, by simp, by simp [timed], by simp, latched, by rw [(endStep_control _ s).1]⟩,
      ⟨by simp, outbox, held, by rw [timed]⟩⟩
  · exact .refl s

/-- What SAFE entry takes from the Coil Scheduler: the pending entries and the latch list. -/
theorem clearCoil_carried (s : State) : Carried s (discardLatch (cancelPending s)) :=
  ⟨⟨rfl, id, ⟨rfl, rfl⟩, by simp [discardLatch], fun _ => id, rfl⟩, ⟨rfl, rfl, rfl, rfl⟩⟩

theorem formSafeDrive_carried (s : State) : Carried s (formSafeDrive s) := by
  obtain ⟨x, d, o, h⟩ := formSafeDrive_eq s
  rw [h]
  exact ⟨⟨rfl, fun _ => rfl, ⟨rfl, rfl⟩, fun _ => id, fun _ => id, rfl⟩, ⟨rfl, rfl, rfl, rfl⟩⟩

theorem enterSafeMode_carried (s : State) : Carried s (enterSafeMode s) := by
  have cleared : Carried s { s with mdc.redrive := false } :=
    ⟨.ofSame ⟨rfl, rfl, rfl, rfl, rfl, rfl, rfl⟩, ⟨rfl, rfl, rfl, rfl⟩⟩
  have moded := cleared.trans (setMode_carried (.safe .driving) _)
  have coil := (moded.trans (abandonForSafe_carried _)).trans (clearCoil_carried _)
  exact ((coil.trans (verifyAtSafe_carried _ _)).trans (signal_carried rfl _)).trans (formSafeDrive_carried _)

theorem returnToConfig_carried (s : State) : Carried s (returnToConfig s) :=
  ((setMode_carried .config s).trans (stopVerifyTimers_carried _)).trans (releaseClaim_carried .debtForced _)

theorem redriveSafe_carried (s : State) : Carried s (redriveSafe s) := by
  have cleared : Carried s { s with mdc.redrive := false } :=
    ⟨.ofSame ⟨rfl, rfl, rfl, rfl, rfl, rfl, rfl⟩, ⟨rfl, rfl, rfl, rfl⟩⟩
  have formed := cleared.trans (formSafeDrive_carried _)
  unfold redriveSafe
  dsimp only
  split
  · exact formed
  · exact formed.trans (setMode_carried _ _)

theorem mismatchInSafe_carried (sub : SafeSub) (s : State) : Carried s (mismatchInSafe sub s) := by
  cases sub with
  | driving => exact ⟨.ofSame ⟨rfl, rfl, rfl, rfl, rfl, rfl, rfl⟩, ⟨rfl, rfl, rfl, rfl⟩⟩
  | held => exact redriveSafe_carried s

/-- Where ENTRY goes back to at a mismatch (R116). -/
def backTo (o : EntryOrigin) (s : State) : State :=
  match o with
  | .config => returnToConfig s
  | .safe => enterSafeMode s

theorem failEntry_eq (o : EntryOrigin) (s : State) :
    failEntry o s = backTo o (answer (.nak .verifyFailed) (withdrawSequence s)) := by
  cases o <;> rfl

theorem backTo_carried (o : EntryOrigin) (s : State) : Carried s (backTo o s) := by
  cases o with
  | config => exact returnToConfig_carried s
  | safe => exact enterSafeMode_carried s

theorem answer_readingKept (x : Result) (s : State) : ReadingKept s (answer x s) := .ofSame (by simp)

/-- The ENTRY sequence out of the hand, and everything else as it was. -/
theorem withdrawSequence_carried (s : State) : ReadingKept s (withdrawSequence s) ∧
    ((∀ x, s.vfu.inHand ≠ some (.entry x)) → (withdrawSequence s).vfu.inHand = s.vfu.inHand) ∧
    (∀ x, s.vfu.inHand = some (.entry x) → (withdrawSequence s).vfu.inHand = none) := by
  unfold withdrawSequence
  split
  · next x hand =>
    have emptied : ReadingKept s { s with vfu.inHand := none } := .ofSame ⟨rfl, rfl, rfl, rfl, rfl, rfl, rfl⟩
    have released : Carried { s with vfu.inHand := none } _ :=
      (releaseClaim_carried .command _).trans (orphanVerify_carried .command _)
    exact ⟨emptied.trans released.reading, fun other => absurd hand (other x), fun _ _ => released.agent.inHand⟩
  · next other =>
    exact ⟨(Carried.refl s).reading, fun _ => rfl, fun x hand => absurd hand (other x)⟩

/-- An answer has been offered to the RESPONSE outbox: it stands there, or waits for it (R151). -/
def State.offered (s : State) (f : Frame) : Prop := s.mga = .answerWait f ∨ s.rtq.response = some f

theorem State.offered.answered {s : State} {f : Frame} (h : s.offered f) : s.answered f := h.imp_right .inl

theorem AgentKept.offered {s t : State} (h : AgentKept s t) {f : Frame} (o : s.offered f) : t.offered f := by
  unfold State.offered
  rwa [h.agent, h.outbox]

/-- An answer, once built, is offered. -/
theorem answer_offered {s : State} {r : Request} (x : Result) (serving : s.mga = .serving r) :
    (answer x s).offered (answerFrame s.lnk r x) ∧ ∀ q, (answer x s).mga ≠ .serving q := by
  rw [answer_handled x serving]
  refine ⟨?_, agentAfter_notServing _ _⟩
  unfold State.offered State.handled outboxAfter agentAfter
  cases s.rtq.response <;> simp

theorem answer_held (x : Result) (s : State) : (answer x s).rtq.responseHeld = s.rtq.responseHeld := by
  unfold answer placeAnswer
  repeat' split
  all_goals rfl

/-- Without a request in service there is nothing to answer. -/
theorem answer_of_done {s : State} (x : Result) (done : ∀ r, s.mga ≠ .serving r) : answer x s = s := by
  unfold answer
  split
  · next r serving => exact absurd serving (done r)
  · rfl
  · rfl

/-! ## The mismatch as the Mode Controller takes it (R95, R116, R122) -/

theorem takeMismatch_readingKept (s : State) : ReadingKept s (takeMismatch s) := by
  unfold takeMismatch
  split
  · rw [failEntry_eq]
    exact ((withdrawSequence_carried s).1.trans (answer_readingKept _ _)).trans (backTo_carried _ _).reading
  · exact (mismatchInSafe_carried _ s).reading
  · exact (Carried.refl s).reading
  · exact (Carried.refl s).reading

/-- Outside ENTRY the agent and the hand are not touched, and in ENTRY only a request in service and a sequence in hand are. -/
theorem takeMismatch_agentKept {s : State} (spared : (∀ o q, s.mdc.mode ≠ .entry o q) ∨
    ((∀ r, s.mga ≠ .serving r) ∧ ∀ x, s.vfu.inHand ≠ some (.entry x))) : AgentKept s (takeMismatch s) := by
  unfold takeMismatch
  split
  · next o q mode =>
    obtain ⟨done, other⟩ := spared.resolve_left fun elsewhere => elsewhere o q mode
    have withdrawn : withdrawSequence s = s := by
      unfold withdrawSequence
      split
      · next x hand => exact absurd hand (other x)
      · rfl
    rw [failEntry_eq, withdrawn, answer_of_done _ done]
    exact (backTo_carried o s).agent
  · exact (mismatchInSafe_carried _ s).agent
  · exact (Carried.refl s).agent
  · exact (Carried.refl s).agent

theorem takeMismatch_held (s : State) : (takeMismatch s).rtq.responseHeld = s.rtq.responseHeld := by
  unfold takeMismatch
  split
  · rw [failEntry_eq, (backTo_carried _ _).agent.held, answer_held]
    simp
  · exact (mismatchInSafe_carried _ s).agent.held
  · rfl
  · rfl

/-! ## The front of the Forward Queue -/

/-- A firm head stays firm where the Forward Queue and Port B's link stand, whatever becomes of the agent. -/
theorem headFirm_of_same {s t : State} (queue : t.fwq.queue = s.fwq.queue) (link : t.lnk.b.link = s.lnk.b.link)
    (q : s.headFirm) : t.headFirm := by
  unfold State.headFirm State.headQuiet
  rwa [queue, link]

theorem enterSafeMode_frontFirm {s : State} (q : s.frontFirm) : (enterSafeMode s).frontFirm := by
  have moded : (setMode (.safe .driving) { s with mdc.redrive := false }).frontFirm :=
    SameFront.frontFirm ⟨by simp, by simp, by simp, by simp⟩ q
  have abandoned : (abandonForSafe (setMode (.safe .driving) { s with mdc.redrive := false })).frontFirm := by
    unfold abandonForSafe
    split
    · exact endStep_frontFirm _ moded
    · exact moded
  unfold enterSafeMode
  dsimp only
  generalize abandonForSafe (setMode (.safe .driving) { s with mdc.redrive := false }) = x at abandoned ⊢
  exact SameFront.frontFirm ⟨by simp, by simp, by simp, by simp⟩ abandoned

theorem takeMismatch_still_of_firm {s : State} (q : s.headFirm) : (takeMismatch s).frontStill := by
  unfold takeMismatch
  split
  · next o _ _ =>
    have answered : (answer (.nak .verifyFailed) (withdrawSequence s)).headFirm := headFirm_of_same (by simp) (by simp) q
    rw [failEntry_eq]
    cases o with
    | config => exact (headFirm_of_same (by simp [backTo]) (by simp [backTo]) answered).still
    | safe => exact (enterSafeMode_frontFirm (.inl answered)).still
  · exact (headFirm_of_same (by simp) (by simp) q).still
  · exact q.still
  · exact q.still

/-- Outside ENTRY a still front stays still: what R49 keeps waiting waits in RUN alone, where nothing happens. -/
theorem takeMismatch_still_of_wait {s : State} (elsewhere : ∀ o q, s.mdc.mode ≠ .entry o q) (q : s.frontStill) :
    (takeMismatch s).frontStill := by
  unfold takeMismatch
  split
  · next o r mode => exact absurd mode (elsewhere o r)
  · next sub mode =>
    have same : SameFront s (mismatchInSafe sub s) :=
      ⟨by simp, by simp, by simp, (mismatchInSafe_carried sub s).agent.held⟩
    refine same.frontStill (fun waits => ?_) q
    rw [waits.1] at mode
    cases mode
  · exact q
  · exact q

/-! ## The requester (R87, R104, R105, R115) -/

/-- What the requester of a completed verify leaves alone: what the reading has recorded but for debt, round and latch list; the chain
side but for an answer; and the tables and the evaluation. -/
structure RequesterKept (s t : State) : Prop where
  recorded : t.csd.recorded = s.csd.recorded ∧ t.csd.passDue = s.csd.passDue ∧ t.csd.pending = s.csd.pending
  events : t.evu = s.evu ∧ t.mdc.trips = s.mdc.trips
  chain : t.lnk = s.lnk ∧ t.fwq = s.fwq ∧ t.rtq.queue = s.rtq.queue ∧ t.rtq.report = s.rtq.report ∧
    t.rtq.responseHeld = s.rtq.responseHeld
  engine : t.ste.st = s.ste.st ∧ t.ste.report = s.ste.report ∧ t.ste.changing = s.ste.changing
  evaluation : t.rev = s.rev
  tables : t.tbs = s.tbs
  clock : t.now = s.now

theorem answer_requesterKept (x : Result) (s : State) : RequesterKept s (answer x s) := by
  unfold answer placeAnswer
  repeat' split
  all_goals exact ⟨⟨rfl, rfl, rfl⟩, ⟨rfl, rfl⟩, ⟨rfl, rfl, rfl, rfl, rfl⟩, ⟨rfl, rfl, rfl⟩, rfl, rfl, rfl⟩

theorem RequesterKept.trans {s t u : State} (h : RequesterKept s t) (g : RequesterKept t u) : RequesterKept s u := by
  obtain ⟨⟨recorded, due, pending⟩, ⟨flags, trips⟩, ⟨lnk, fwq, queue, report, held⟩, ⟨st, built, changing⟩, rev, tbs, now⟩ := g
  obtain ⟨⟨recorded', due', pending'⟩, ⟨flags', trips'⟩, ⟨lnk', fwq', queue', report', held'⟩, ⟨st', built', changing'⟩, rev',
    tbs', now'⟩ := h
  exact ⟨⟨recorded.trans recorded', due.trans due', pending.trans pending'⟩, ⟨flags.trans flags', trips.trans trips'⟩,
    ⟨lnk.trans lnk', fwq.trans fwq', queue.trans queue', report.trans report', held.trans held'⟩,
    ⟨st.trans st', built.trans built', changing.trans changing'⟩, rev.trans rev', tbs.trans tbs', now.trans now'⟩

theorem RequesterKept.refl (s : State) : RequesterKept s s :=
  ⟨⟨rfl, rfl, rfl⟩, ⟨rfl, rfl⟩, ⟨rfl, rfl, rfl, rfl, rfl⟩, ⟨rfl, rfl, rfl⟩, rfl, rfl, rfl⟩

theorem endSequence_requesterKept (s : State) : RequesterKept s (endSequence s) :=
  ⟨⟨rfl, rfl, rfl⟩, ⟨rfl, rfl⟩, ⟨rfl, rfl, rfl, rfl, rfl⟩, ⟨rfl, rfl, rfl⟩, rfl, rfl, rfl⟩

theorem setInHand_requesterKept (h : Option InHand) (s : State) : RequesterKept s { s with vfu.inHand := h } :=
  ⟨⟨rfl, rfl, rfl⟩, ⟨rfl, rfl⟩, ⟨rfl, rfl, rfl, rfl, rfl⟩, ⟨rfl, rfl, rfl⟩, rfl, rfl, rfl⟩

/-- RUN entered, its request acknowledged, and the slot timer started (R115). -/
def State.inRun (s : State) : State :=
  startSlot { answer (.ack []) (setMode .run s) with
    ste := { (answer (.ack []) (setMode .run s)).ste with settledMark := false } }

theorem enterRunMode_eq (s : State) : enterRunMode s = if s.inRun.ste.st = .idle then startIdleLead s.inRun else s.inRun := rfl

theorem enterRunMode_requesterKept (s : State) : RequesterKept s (enterRunMode s) := by
  have moded : RequesterKept s (setMode .run s) :=
    ⟨by simp, by simp, by simp, by simp, by simp, by simp, by simp⟩
  have answered := moded.trans (answer_requesterKept (.ack []) _)
  have started : RequesterKept (answer (.ack []) (setMode .run s)) s.inRun :=
    ⟨⟨rfl, rfl, rfl⟩, ⟨rfl, rfl⟩, ⟨rfl, rfl, rfl, rfl, rfl⟩, ⟨rfl, rfl, rfl⟩, rfl, rfl, rfl⟩
  rw [enterRunMode_eq]
  split
  · exact (answered.trans started).trans ⟨by simp, by simp, by simp, by simp, by simp, by simp, by simp⟩
  · exact answered.trans started

theorem completeCommand_requesterKept (mismatched : Bool) (s : State) : RequesterKept s (completeCommand mismatched s) := by
  have ended := endSequence_requesterKept s
  unfold completeCommand
  repeat' split
  exacts [.refl s, (setInHand_requesterKept none s).trans (answer_requesterKept _ _), setInHand_requesterKept _ s,
    ended.trans (answer_requesterKept _ _), .refl s, setInHand_requesterKept _ s, ended.trans (enterRunMode_requesterKept _)]

theorem completeFor_requesterKept (k : VerifyKind) (b : Bank) (mismatched : Bool) (s : State) :
    RequesterKept s (completeFor k b mismatched s) := by
  cases k with
  | command => exact completeCommand_requesterKept mismatched s
  | recovery => exact ⟨⟨rfl, rfl, rfl⟩, ⟨rfl, rfl⟩, ⟨rfl, rfl, rfl, rfl, rfl⟩, ⟨rfl, rfl, rfl⟩, rfl, rfl, rfl⟩
  | debtForced | ordinary | pullIn | withdrawn => exact .refl s

end Sys2Proof.Machine
end

section
/-! SUPPORT. The completion of a verify as a whole (R94, R95): the reading, its requester, and a mismatch. -/

namespace Sys2Proof.Machine

/-! ## The command in hand (R104, R105) -/

theorem bankAfter_next {x : Bank} (h : x.val + 1 < 6) : bankAfter x = some ⟨x.val + 1, h⟩ := dif_pos h

section
variable {s : State} {mismatched : Bool}

theorem completeCommand_bank {x : Bank} (hand : s.vfu.inHand = some (.bank x)) :
    completeCommand mismatched s = answer (.ack []) { s with vfu.inHand := none } := by
  unfold completeCommand
  rw [hand]

theorem completeCommand_allNext {x : Bank} (hand : s.vfu.inHand = some (.all x)) (h : x.val + 1 < 6) :
    completeCommand mismatched s = { s with vfu.inHand := some (.all ⟨x.val + 1, h⟩) } := by
  unfold completeCommand
  rw [hand]
  dsimp only
  rw [bankAfter_next h]

theorem completeCommand_allLast (hand : s.vfu.inHand = some (.all 5)) :
    completeCommand mismatched s = answer (.ack []) (endSequence s) := by
  unfold completeCommand
  rw [hand]
  rfl

theorem completeCommand_entryNext {x : Bank} (hand : s.vfu.inHand = some (.entry x)) (h : x.val + 1 < 6) :
    completeCommand false s = { s with vfu.inHand := some (.entry ⟨x.val + 1, h⟩) } := by
  unfold completeCommand
  rw [hand]
  dsimp only
  rw [bankAfter_next h, if_neg Bool.false_ne_true]

theorem completeCommand_entryLast (hand : s.vfu.inHand = some (.entry 5)) :
    completeCommand false s = enterRunMode (endSequence s) := by
  unfold completeCommand
  rw [hand]
  rfl

theorem completeCommand_entryMismatched {x : Bank} (hand : s.vfu.inHand = some (.entry x)) :
    completeCommand true s = s := by
  unfold completeCommand
  rw [hand]
  rfl

theorem completeCommand_unowned (hand : s.vfu.inHand = none) : completeCommand mismatched s = s := by
  unfold completeCommand
  rw [hand]

end

/-- A verify that ends VERIFY_ALL or the ENTRY sequence (R105). -/
def VerifyEnds (s : State) (k : VerifyKind) (mismatched : Bool) : Prop :=
  k = .command ∧ (s.vfu.inHand = some (.all 5) ∨ (s.vfu.inHand = some (.entry 5) ∧ mismatched = false))

theorem enterRunMode_paid (s : State) : (enterRunMode s).vfu.debt = s.vfu.debt ∧ (enterRunMode s).vfu.round = s.vfu.round ∧
    (enterRunMode s).vfu.inHand = s.vfu.inHand := by
  have started : s.inRun.vfu = { s.vfu with slot := s.inRun.vfu.slot } := by simp [State.inRun, startSlot]
  rw [enterRunMode_eq]
  split
  · have timed := startIdleLead_carried s.inRun
    rw [timed.reading.paid.1, timed.reading.paid.2, timed.agent.inHand, started]
    exact ⟨rfl, rfl, rfl⟩
  · rw [started]
    exact ⟨rfl, rfl, rfl⟩

/-- The last verify of a sequence clears debt and round. -/
theorem completeFor_ends {s : State} {k : VerifyKind} {mismatched : Bool} (b : Bank) (ends : VerifyEnds s k mismatched) :
    (completeFor k b mismatched s).vfu.debt = 0 ∧ (completeFor k b mismatched s).vfu.round = 0 := by
  obtain ⟨rfl, hand | ⟨hand, rfl⟩⟩ := ends
  · have last : completeFor .command b mismatched s = answer (.ack []) (endSequence s) := completeCommand_allLast hand
    rw [last]
    simp [endSequence]
  · have last : completeFor .command b false s = enterRunMode (endSequence s) := completeCommand_entryLast hand
    obtain ⟨debt, round, -⟩ := enterRunMode_paid (endSequence s)
    rw [last, debt, round]
    exact ⟨rfl, rfl⟩

theorem bankAfter_none {x : Bank} (last : ¬x.val + 1 < 6) : x = 5 := Fin.ext (by omega)

/-- Any other completion leaves debt and round to the reading. -/
theorem completeFor_goesOn {s : State} {k : VerifyKind} {mismatched : Bool} (b : Bank) (goesOn : ¬VerifyEnds s k mismatched) :
    (completeFor k b mismatched s).vfu.debt = s.vfu.debt ∧ (completeFor k b mismatched s).vfu.round = s.vfu.round := by
  cases k with
  | recovery => exact ⟨rfl, rfl⟩
  | debtForced | ordinary | pullIn | withdrawn => exact ⟨rfl, rfl⟩
  | command =>
    have more : ¬(s.vfu.inHand = some (.all 5) ∨ (s.vfu.inHand = some (.entry 5) ∧ mismatched = false)) :=
      fun last => goesOn ⟨rfl, last⟩
    change (completeCommand mismatched s).vfu.debt = _ ∧ (completeCommand mismatched s).vfu.round = _
    cases hand : s.vfu.inHand with
    | none => rw [completeCommand_unowned hand]; exact ⟨rfl, rfl⟩
    | some h =>
      rw [hand] at more
      cases h with
      | bank x => rw [completeCommand_bank hand]; simp
      | all x =>
        by_cases next : x.val + 1 < 6
        · rw [completeCommand_allNext hand next]
          exact ⟨rfl, rfl⟩
        · exact absurd (.inl (by rw [bankAfter_none next])) more
      | entry x =>
        cases mismatched with
        | true => rw [completeCommand_entryMismatched hand]; exact ⟨rfl, rfl⟩
        | false =>
          by_cases next : x.val + 1 < 6
          · rw [completeCommand_entryNext hand next]
            exact ⟨rfl, rfl⟩
          · exact absurd (.inr ⟨by rw [bankAfter_none next], rfl⟩) more

/-- A completion moves the mode to RUN or leaves it. -/
theorem completeFor_mode (k : VerifyKind) (b : Bank) (mismatched : Bool) (s : State) :
    (completeFor k b mismatched s).mdc.mode = s.mdc.mode ∨ (completeFor k b mismatched s).mdc.mode = .run := by
  cases k with
  | recovery => exact .inl (by simp [completeFor])
  | debtForced | ordinary | pullIn | withdrawn => exact .inl rfl
  | command =>
    change (completeCommand mismatched s).mdc.mode = _ ∨ (completeCommand mismatched s).mdc.mode = _
    unfold completeCommand
    repeat' split
    exacts [.inl rfl, .inl (by simp), .inl rfl, .inl (by simp), .inl rfl, .inl rfl, .inr (by
      rw [enterRunMode_eq]
      split <;> simp [State.inRun, setMode])]

/-- Only a verify that the recovery requested touches the latch list. -/
theorem completeFor_latch {k : VerifyKind} (other : k ≠ .recovery) (b : Bank) (mismatched : Bool) (s : State) :
    (completeFor k b mismatched s).csd.latch = s.csd.latch := by
  cases k with
  | recovery => exact absurd rfl other
  | debtForced | ordinary | pullIn | withdrawn => rfl
  | command =>
    change (completeCommand mismatched s).csd.latch = _
    unfold completeCommand
    repeat' split
    all_goals simp

/-! ## The whole effect -/

/-- The state once the reading is recorded and its requester has taken it. -/
def State.verified (s : State) (contacts : List (BitVec 7)) (b : Bank) (k : VerifyKind) (due : Nat) : State :=
  completeFor k b (bankMismatched s b contacts) (completeReading b contacts (s.advance due))

section
variable {contacts : List (BitVec 7)} {b : Bank} {k : VerifyKind} {due : Nat} {s : State}
  (verifying : s.vfu.activity = .verifying b k due)
include verifying

theorem verifyEffect_mismatched (mismatched : bankMismatched s b contacts = true) :
    verifyEffect contacts s = takeMismatch (signal (.mismatch b) (s.verified contacts b k due)) := by
  unfold verifyEffect
  rw [verifying]
  exact if_pos mismatched

theorem verifyEffect_agreed (agreed : bankMismatched s b contacts = false) :
    verifyEffect contacts s = s.verified contacts b k due := by
  unfold verifyEffect
  rw [verifying]
  exact if_neg (by simp [agreed])

end

theorem signal_mismatch_trips (b : Bank) (s : State) : (signal (.mismatch b) s).mdc.trips =
    s.mdc.trips ++ (if s.tbs.runtime.tripMask.getLsbD b.val = true then [.mismatch b] else []) := by
  have mask : (latchFlag (.mismatch b) s).tbs.runtime.tripMask = s.tbs.runtime.tripMask := by simp
  unfold signal requestTripOf
  dsimp only [Flag.trip]
  rw [mask]
  split <;> simp [requestTrip]

/-- What a completed verify of a bank leaves, right after the event's own effect. -/
structure VerifyDone (s : State) (contacts : List (BitVec 7)) (b : Bank) (k : VerifyKind) (due : Nat) (e : State) : Prop where
  recorded : e.csd.recorded = verifiedPositions s b contacts
  passDue : e.csd.passDue = true
  paid : e.vfu.debt = (s.verified contacts b k due).vfu.debt ∧ e.vfu.round = (s.verified contacts b k due).vfu.round
  latch : ∀ x ∈ e.csd.latch, x ∈ (s.verified contacts b k due).csd.latch
  flag : bankMismatched s b contacts = true → e.isLatched (.mismatch b) = true
  trips : e.mdc.trips = s.mdc.trips ++
    (if bankMismatched s b contacts = true ∧ s.tbs.runtime.tripMask.getLsbD b.val = true then [.mismatch b] else [])
  held : e.rtq.responseHeld = s.rtq.responseHeld

@[simp] theorem completeReading_latch (b : Bank) (contacts : List (BitVec 7)) (s : State) :
    (completeReading b contacts s).csd.latch = s.csd.latch := by
  simp [completeReading]

theorem verified_kept (contacts : List (BitVec 7)) (b : Bank) (k : VerifyKind) (due : Nat) (s : State) :
    RequesterKept (completeReading b contacts (s.advance due)) (s.verified contacts b k due) :=
  completeFor_requesterKept _ _ _ _

theorem verifyEffect_done {contacts : List (BitVec 7)} {b : Bank} {k : VerifyKind} {due : Nat} {s : State}
    (verifying : s.vfu.activity = .verifying b k due) : VerifyDone s contacts b k due (verifyEffect contacts s) := by
  have kept := verified_kept contacts b k due s
  have recorded : (s.verified contacts b k due).csd.recorded = verifiedPositions s b contacts :=
    kept.recorded.1.trans (completeReading_recorded _ _ _)
  have passDue : (s.verified contacts b k due).csd.passDue = true := kept.recorded.2.1
  have trips : (s.verified contacts b k due).mdc.trips = s.mdc.trips := by rw [kept.events.2]; simp
  have held : (s.verified contacts b k due).rtq.responseHeld = s.rtq.responseHeld := by rw [kept.chain.2.2.2.2]; simp
  have tables : (s.verified contacts b k due).tbs = s.tbs := by rw [kept.tables]; simp
  cases mismatched : bankMismatched s b contacts with
  | false =>
    rw [verifyEffect_agreed verifying mismatched]
    exact ⟨recorded, passDue, ⟨rfl, rfl⟩, fun _ => id, fun h => absurd (mismatched.symm.trans h) Bool.false_ne_true,
      by simp [mismatched, trips], held⟩
  | true =>
    have taken := takeMismatch_readingKept (signal (.mismatch b) (s.verified contacts b k due))
    rw [verifyEffect_mismatched verifying mismatched]
    refine ⟨by rw [taken.recorded]; simpa using recorded, taken.due (by simpa using passDue),
      by rw [taken.paid.1, taken.paid.2]; simp, fun x m => by simpa using taken.latch x m,
      fun _ => taken.latched _ (signal_isLatched _ _), ?_, by rw [takeMismatch_held]; simpa using held⟩
    rw [taken.trips, signal_mismatch_trips, tables, trips]
    simp [mismatched]

/-! ## The front of the Forward Queue -/

/-- A step frame goes on waiting through a verify of a command's. -/
theorem verified_stepWaits {contacts : List (BitVec 7)} {b : Bank} {k : VerifyKind} {due : Nat} {s : State}
    (other : k ≠ .recovery) (q : s.stepWaits) : (s.verified contacts b k due).stepWaits := by
  have kept := verified_kept contacts b k due s
  obtain ⟨lnk, fwq, queue, report, -⟩ := kept.chain
  obtain ⟨st, built, -⟩ := kept.engine
  have latch : (s.verified contacts b k due).csd.latch = s.csd.latch :=
    (completeFor_latch other _ _ _).trans (by simp)
  obtain ⟨run, addressed, x, l, head, waiting, step, barred⟩ := q
  have mode : (s.verified contacts b k due).mdc.mode = .run :=
    (completeFor_mode _ _ _ _).elim (fun same => same.trans (by simpa using run)) id
  have addr : (s.verified contacts b k due).lnk = s.lnk := lnk.trans (by simp)
  refine ⟨mode, by rw [addr]; exact addressed, x, l, ?_, waiting, step, stepBarred_of_same ⟨?_, ?_⟩ ?_ ?_ barred⟩
  · rw [fwq]; simpa using head
  · rw [st]; simp
  · rw [built]; simp
  · rw [latch]; exact id
  · exact reportBarred_of_same (by rw [queue]; simp) (by rw [addr]) (by rw [report]; simp)

theorem verifyEffect_still {contacts : List (BitVec 7)} {b : Bank} {k : VerifyKind} {due : Nat} {s : State}
    (verifying : s.vfu.activity = .verifying b k due) (q : s.frontAtVerify k) : (verifyEffect contacts s).frontStill := by
  have kept := verified_kept contacts b k due s
  obtain firm | ⟨still, waits, other, elsewhere⟩ := q
  · have firm' : (s.verified contacts b k due).headFirm :=
      headFirm_of_same (by rw [kept.chain.2.1]; simp) (by rw [kept.chain.1]; simp) firm
    cases mismatched : bankMismatched s b contacts with
    | false => rw [verifyEffect_agreed verifying mismatched]; exact firm'.still
    | true =>
      rw [verifyEffect_mismatched verifying mismatched]
      exact takeMismatch_still_of_firm (headFirm_of_same (by simp) (by simp) firm')
  · have still' : (s.verified contacts b k due).frontStill := by
      cases k with
      | recovery => exact absurd rfl other
      | command => exact .inr (.inr (.inr (verified_stepWaits other (waits rfl))))
      | debtForced | ordinary | pullIn | withdrawn =>
        change (completeReading b contacts (s.advance due)).frontStill
        exact frontStill_of_same (by simp) (by simp) (by simp) (by simp) (by simp) (by simp) (by simp) still
    have elsewhere' : ∀ o q, (s.verified contacts b k due).mdc.mode ≠ .entry o q := by
      intro o q
      obtain same | run := completeFor_mode k b (bankMismatched s b contacts) (completeReading b contacts (s.advance due))
      · rw [State.verified, same]
        simpa using elsewhere o q
      · rw [State.verified, run]
        simp
    cases mismatched : bankMismatched s b contacts with
    | false => rw [verifyEffect_agreed verifying mismatched]; exact still'
    | true =>
      rw [verifyEffect_mismatched verifying mismatched]
      exact takeMismatch_still_of_wait (by simpa using elsewhere') (signal_frontStill _ still')

end Sys2Proof.Machine
end

section
/-! PROOF. A completed verify pays debt, joins the round and answers its command (R87, R96 to R98, R104, R105, R155; O32, O34). -/

namespace Sys2Proof.Machine

/-! ## The round (R96) -/

/-- The banks of a round with one more bank. -/
theorem joined_getLsbD (r : BitVec 6) (b c : Bank) :
    (r ||| BitVec.twoPow 6 b.val).getLsbD c.val = (decide (c = b) || r.getLsbD c.val) := by
  have within : c.val < 6 := c.isLt
  have same : decide (b.val = c.val) = decide (c = b) := by
    rw [decide_eq_decide, eq_comm, Fin.ext_iff]
  rw [BitVec.getLsbD_or, BitVec.getLsbD_twoPow, Bool.or_comm, same]
  simp [within]

theorem eq_allOnes_iff {x : BitVec 6} : x = BitVec.allOnes 6 ↔ ∀ c : Bank, x.getLsbD c.val = true := by
  refine ⟨fun full c => by rw [full, BitVec.getLsbD_allOnes, decide_eq_true c.isLt], fun full => BitVec.eq_of_getLsbD_eq fun i h => ?_⟩
  rw [full ⟨i, h⟩, BitVec.getLsbD_allOnes, decide_eq_true h]

theorem addToRound_full {r : BitVec 6} {b : Bank} (full : ∀ c : Bank, c = b ∨ r.getLsbD c.val = true) :
    addToRound r b = 0 := by
  refine if_pos (eq_allOnes_iff.mpr fun c => ?_)
  rw [joined_getLsbD]
  simpa using full c

theorem addToRound_partial {r : BitVec 6} {b : Bank} (partial_ : ¬∀ c : Bank, c = b ∨ r.getLsbD c.val = true) (c : Bank) :
    (addToRound r b).getLsbD c.val = (decide (c = b) || r.getLsbD c.val) := by
  have left : ¬(r ||| BitVec.twoPow 6 b.val) = BitVec.allOnes 6 := by
    refine mt eq_allOnes_iff.mp fun full => partial_ fun d => ?_
    have joined := full d
    rw [joined_getLsbD] at joined
    simpa using joined
  unfold addToRound
  dsimp only
  rw [if_neg left, joined_getLsbD]

theorem completeReading_paid (b : Bank) (contacts : List (BitVec 7)) (s : State) :
    (completeReading b contacts s).vfu.debt = max (s.vfu.debt - 1) (-3) ∧
      (completeReading b contacts s).vfu.round = addToRound s.vfu.round b := by
  simp [completeReading, debtDown]

theorem exec_verifyComplete (contacts : List (BitVec 7)) {s : State} (running : s.running) :
    exec (.verifyComplete contacts) s = .next (settled (verifyEffect contacts s)) :=
  congrArg Host.Outcome.next (event_running (verifyEffect contacts) running)

/-- Settles O32: the reading pays the debt and joins the round, the last verify of a sequence clears both, and nothing after it in the
event changes them. -/
theorem verifyPaysDebt : Obligations.VerifyPaysDebt := by
  intro contacts b k due s running front verifying ends
  have done := verifyEffect_done (contacts := contacts) verifying
  obtain ⟨-, matrix⟩ := settled_kept _ (verifyEffect_still (contacts := contacts) verifying front)
  obtain ⟨debt, round⟩ := completeReading_paid b contacts (s.advance due)
  refine ⟨_, exec_verifyComplete contacts running, fun last => ?_, fun goesOn => ?_,
    fun recovery x mem => ?_⟩
  · obtain ⟨noDebt, fresh⟩ := completeFor_ends (s := completeReading b contacts (s.advance due)) b (show VerifyEnds _ _ _ from last)
    exact ⟨(matrix.debt.1.trans done.paid.1).trans noDebt, (matrix.debt.2.trans done.paid.2).trans fresh⟩
  · obtain ⟨sameDebt, sameRound⟩ :=
      completeFor_goesOn (s := completeReading b contacts (s.advance due)) b (show ¬VerifyEnds _ _ _ from goesOn)
    have round' := ((matrix.debt.2.trans done.paid.2).trans sameRound).trans round
    exact ⟨((matrix.debt.1.trans done.paid.1).trans sameDebt).trans debt, fun full => round'.trans (addToRound_full full),
      fun left c => by rw [round']; exact addToRound_partial left c⟩
  · rw [matrix.recovery.2.1] at mem
    have kept := done.latch x mem
    subst recovery
    have filtered : x ∈ (removeLanded b { completeReading b contacts (s.advance due) with
        vfu.requests := (completeReading b contacts (s.advance due)).vfu.requests.filter (· != b) }).csd.latch := kept
    have stays := (List.mem_filter.mp filtered).2
    rw [not_and_or]
    simpa using stays

/-! ## The answers (R104, R105) -/

@[simp] theorem completeReading_inHand (b : Bank) (contacts : List (BitVec 7)) (s : State) :
    (completeReading b contacts s).vfu.inHand = s.vfu.inHand := by
  simp [completeReading]

section
variable {contacts : List (BitVec 7)} {b : Bank} {k : VerifyKind} {due : Nat} {s : State}
  (verifying : s.vfu.activity = .verifying b k due)
include verifying

/-- Outside ENTRY, or with the request answered and no sequence in hand, a mismatch touches neither agent nor hand. -/
theorem verifyEffect_agentKept (spared : (∀ o q, (s.verified contacts b k due).mdc.mode ≠ .entry o q) ∨
    ((∀ r, (s.verified contacts b k due).mga ≠ .serving r) ∧ ∀ x, (s.verified contacts b k due).vfu.inHand ≠ some (.entry x))) :
    AgentKept (s.verified contacts b k due) (verifyEffect contacts s) := by
  cases mismatched : bankMismatched s b contacts with
  | false =>
    rw [verifyEffect_agreed verifying mismatched]
    exact (Carried.refl _).agent
  | true =>
    have taken : AgentKept (signal (.mismatch b) (s.verified contacts b k due)) _ :=
      takeMismatch_agentKept (by simpa using spared)
    rw [verifyEffect_mismatched verifying mismatched]
    exact ⟨by rw [taken.agent]; simp, by rw [taken.outbox]; simp, by rw [taken.held]; simp, by rw [taken.inHand]; simp⟩

variable (front : s.headFirm) (unheld : s.rtq.responseHeld = false)
include front unheld

/-- What the agent and the Verify Unit's hand are left with in the event of a completed verify: what its own effect left. -/
theorem settled_verify_agent : (∀ f, (verifyEffect contacts s).offered f → (settled (verifyEffect contacts s)).answered f) ∧
    (∀ r, (verifyEffect contacts s).mga = .serving r → (settled (verifyEffect contacts s)).mga = .serving r) ∧
    (settled (verifyEffect contacts s)).vfu.inHand = (verifyEffect contacts s).vfu.inHand := by
  obtain ⟨chain, matrix⟩ := settled_kept _ (verifyEffect_still (contacts := contacts) verifying (.inl front))
  have held := (verifyEffect_done (contacts := contacts) verifying).held.trans unheld
  exact ⟨fun f offered => chain.answers held f offered.answered, chain.agentServing held, matrix.demands.2⟩

end

/-- A command that its verify's completion has answered. -/
theorem verifyCommand_answered {contacts : List (BitVec 7)} {b : Bank} {due : Nat} {r : Request} {s t : State}
    (verifying : s.vfu.activity = .verifying b .command due) (front : s.headFirm) (unheld : s.rtq.responseHeld = false)
    (answers : s.verified contacts b .command due = answer (.ack []) t) (serving : t.mga = .serving r) (lnk : t.lnk = s.lnk)
    (hand : t.vfu.inHand = none) :
    (settled (verifyEffect contacts s)).answered (answerFrame s.lnk r (.ack [])) ∧
      (settled (verifyEffect contacts s)).vfu.inHand = none := by
  obtain ⟨offered, done⟩ := answer_offered (.ack []) serving
  have empty : (s.verified contacts b .command due).vfu.inHand = none := by rw [answers]; simpa using hand
  have kept := verifyEffect_agentKept (contacts := contacts) verifying
    (.inr ⟨by rw [answers]; exact done, fun x => by rw [empty]; simp⟩)
  obtain ⟨answered, -, inHand⟩ := settled_verify_agent (contacts := contacts) verifying front unheld
  rw [lnk, ← answers] at offered
  exact ⟨answered _ (kept.offered offered), inHand.trans (kept.inHand.trans empty)⟩

/-- Settles O34: the command in hand by its kind, and for VERIFY_ALL by its bank. -/
theorem verifyCommandsAreAnswered : Obligations.VerifyCommandsAreAnswered := by
  intro contacts b due r s running front verifying serving unheld
  have done := verifyEffect_done (contacts := contacts) verifying
  obtain ⟨-, matrix⟩ := settled_kept _ (verifyEffect_still (contacts := contacts) verifying (.inl front))
  have own := exec_verifyComplete contacts running
  have serving' : (completeReading b contacts (s.advance due)).mga = .serving r := by simpa using serving
  have hand' : ∀ {h}, s.vfu.inHand = some h → (completeReading b contacts (s.advance due)).vfu.inHand = some h := by
    intro h hand
    simpa using hand
  refine ⟨fun x hand => ?_, fun x hand next elsewhere => ?_, fun hand => ?_⟩
  · obtain ⟨answered, empty⟩ := verifyCommand_answered verifying front unheld
      (t := { completeReading b contacts (s.advance due) with vfu.inHand := none })
      (completeCommand_bank (hand' hand)) serving' (by simp) rfl
    have goesOn : ¬VerifyEnds (completeReading b contacts (s.advance due)) .command (bankMismatched s b contacts) := by
      rintro ⟨-, last | ⟨last, -⟩⟩ <;> rw [hand' hand] at last <;> cases last
    exact ⟨_, own, empty, ((matrix.debt.1.trans done.paid.1).trans (completeFor_goesOn b goesOn).1).trans
      (completeReading_paid b contacts (s.advance due)).1, answered⟩
  · have goesOn : s.verified contacts b .command due =
        { completeReading b contacts (s.advance due) with vfu.inHand := some (.all ⟨x.val + 1, next⟩) } :=
      completeCommand_allNext (hand' hand) next
    have kept := verifyEffect_agentKept (contacts := contacts) verifying (.inl fun o q => by
      rw [goesOn]; simpa using elsewhere o q)
    obtain ⟨-, serves, inHand⟩ := settled_verify_agent (contacts := contacts) verifying front unheld
    exact ⟨_, own, inHand.trans (kept.inHand.trans (by rw [goesOn])),
      serves r (kept.agent.trans (by rw [goesOn]; exact serving'))⟩
  · obtain ⟨answered, empty⟩ := verifyCommand_answered verifying front unheld
      (t := endSequence (completeReading b contacts (s.advance due)))
      (completeCommand_allLast (hand' hand)) (by simpa using serving') (by simp) rfl
    obtain ⟨noDebt, fresh⟩ := completeFor_ends (mismatched := bankMismatched s b contacts) b ⟨rfl, .inl (hand' hand)⟩
    exact ⟨_, own, empty, (matrix.debt.1.trans done.paid.1).trans noDebt, (matrix.debt.2.trans done.paid.2).trans fresh, answered⟩

end Sys2Proof.Machine
end

section
/-! PROOF. The ENTRY sequence decides the mode (R97, R99, R105, R115, R116, R119; O35). -/

namespace Sys2Proof.Machine

/-! ## RUN is entered (R115) -/

/-- What the entry of RUN leaves: its mode, its slot timer, the idle lead started where the engine rests, and an answer offered. -/
structure RunEntered (s t : State) : Prop where
  mode : t.mdc.mode = .run
  slot : t.vfu.slot = some (s.now + s.tbs.core.slotInterval * 1000000)
  mark : t.ste.settledMark = false
  engine : t.ste.st = s.ste.st
  lead : s.ste.st = .idle → (s.tbs.runtime.idleLead ≠ 0 →
    t.vfu.idleLead = some (s.now + s.tbs.runtime.idleLead * 1000) ∧ t.vfu.idleMark = false) ∧
      (s.tbs.runtime.idleLead = 0 → t.vfu.idleMark = true)
  agent : AgentKept (answer (.ack []) (setMode .run s)) t

theorem startIdleLead_slot (s : State) : (startIdleLead s).vfu.slot = s.vfu.slot := by
  unfold startIdleLead
  split <;> rfl

/-- The idle lead as it is started; a lead of 0 expires at once (R99). -/
theorem startIdleLead_lead (s : State) :
    (s.tbs.runtime.idleLead ≠ 0 → (startIdleLead s).vfu.idleLead = some (s.now + s.tbs.runtime.idleLead * 1000) ∧
      (startIdleLead s).vfu.idleMark = false) ∧ (s.tbs.runtime.idleLead = 0 → (startIdleLead s).vfu.idleMark = true) := by
  unfold startIdleLead
  split
  · next none_ => exact ⟨fun some_ => absurd none_ some_, fun _ => rfl⟩
  · next some_ => exact ⟨fun _ => ⟨rfl, rfl⟩, fun none_ => absurd none_ some_⟩

theorem enterRunMode_entered (s : State) : RunEntered s (enterRunMode s) := by
  have clock : s.inRun.now = s.now := by simp [State.inRun]
  have tables : s.inRun.tbs = s.tbs := by simp [State.inRun]
  have mode : s.inRun.mdc.mode = .run := by simp [State.inRun, setMode]
  have slot : s.inRun.vfu.slot = some (s.now + s.tbs.core.slotInterval * 1000000) := by simp [State.inRun, startSlot]
  have mark : s.inRun.ste.settledMark = false := by simp [State.inRun]
  have engine : s.inRun.ste.st = s.ste.st := by simp [State.inRun]
  have agent : AgentKept (answer (.ack []) (setMode .run s)) s.inRun := ⟨rfl, rfl, rfl, rfl⟩
  rw [enterRunMode_eq, engine]
  by_cases idle : s.ste.st = .idle
  · have timed := startIdleLead_lead s.inRun
    have carried := startIdleLead_carried s.inRun
    rw [clock, tables] at timed
    rw [if_pos idle]
    exact
      { mode := by simpa using mode
        slot := (startIdleLead_slot _).trans slot
        mark := by simpa using mark
        engine := by simpa using engine
        lead := fun _ => timed
        agent := ⟨carried.agent.agent.trans agent.agent, carried.agent.outbox.trans agent.outbox,
          carried.agent.held.trans agent.held, carried.agent.inHand.trans agent.inHand⟩ }
  · rw [if_neg idle]
    exact ⟨mode, slot, mark, engine, fun rests => absurd rests idle, agent⟩

/-! ## ENTRY is left for where it came from (R116, R119) -/

theorem returnToConfig_mode (s : State) : (returnToConfig s).mdc.mode = .config := by
  simp [returnToConfig, withdrawDebtForced, setMode]

theorem returnToConfig_slot (s : State) : (returnToConfig s).vfu.slot = none := by
  unfold returnToConfig withdrawDebtForced releaseClaim
  repeat' split
  all_goals rfl

theorem abandonForSafe_mdc (s : State) : (abandonForSafe s).mdc = s.mdc := by
  unfold abandonForSafe
  split
  · exact (endStep_control _ s).1
  · rfl

theorem enterSafeMode_mode (s : State) : (enterSafeMode s).mdc.mode = .safe .driving := by
  simp [enterSafeMode, formSafeDrive_mdc, abandonForSafe_mdc, setMode]

theorem enterSafeMode_flag (s : State) : (enterSafeMode s).isLatched .safeEntered = true :=
  (formSafeDrive_carried _).reading.latched _ (signal_isLatched _ _)

/-- What a mismatch in ENTRY leaves: the sequence out of the hand, the entry request refused, and the mode where ENTRY came from. -/
structure EntryFailed (s : State) (o : EntryOrigin) (r : Request) (t : State) : Prop where
  hand : t.vfu.inHand = none
  refused : t.offered (answerFrame s.lnk r (.nak .verifyFailed))
  toConfig : o = .config → t.mdc.mode = .config ∧ t.vfu.slot = none
  toSafe : o = .safe → t.mdc.mode = .safe .driving ∧ t.isLatched .safeEntered = true

theorem failEntry_failed {s : State} (o : EntryOrigin) {r : Request} {x : Bank} (serving : s.mga = .serving r)
    (hand : s.vfu.inHand = some (.entry x)) : EntryFailed s o r (failEntry o s) := by
  have withdrawn := (withdrawSequence_carried s).2.2 x hand
  have offered := (answer_offered (s := withdrawSequence s) (.nak .verifyFailed) (by simpa using serving)).1
  have kept := (backTo_carried o (answer (.nak .verifyFailed) (withdrawSequence s))).agent
  rw [failEntry_eq]
  refine ⟨?_, kept.offered (by simpa using offered), ?_, ?_⟩
  · rw [kept.inHand]
    simpa using withdrawn
  · rintro rfl
    exact ⟨returnToConfig_mode _, returnToConfig_slot _⟩
  · rintro rfl
    exact ⟨enterSafeMode_mode _, enterSafeMode_flag _⟩

/-- A mismatch leaves the ENTRY sequence in hand until the Mode Controller takes it, whatever verify found it (R116). -/
theorem completeFor_entryMismatched {s : State} {x : Bank} (hand : s.vfu.inHand = some (.entry x)) (k : VerifyKind) (b : Bank) :
    (completeFor k b true s).vfu.inHand = some (.entry x) ∧ (completeFor k b true s).mga = s.mga ∧
      (completeFor k b true s).mdc.mode = s.mdc.mode := by
  cases k with
  | command =>
    have same : completeFor .command b true s = s := completeCommand_entryMismatched hand
    rw [same]
    exact ⟨hand, rfl, rfl⟩
  | recovery => exact ⟨hand, rfl, rfl⟩
  | debtForced | ordinary | pullIn | withdrawn => exact ⟨hand, rfl, rfl⟩

/-! ## The obligation -/

section
variable {contacts : List (BitVec 7)} {b : Bank} {due : Nat} {o : EntryOrigin} {q : EntryRequest} {r : Request} {s : State}
  (front : s.headFirm) (serving : s.mga = .serving r) (unheld : s.rtq.responseHeld = false)
include front serving unheld

/-- The last verify of the ENTRY sequence, without a mismatch. -/
theorem entry_completes (verifying : s.vfu.activity = .verifying b .command due)
    (agreed : bankMismatched s b contacts = false) (hand : s.vfu.inHand = some (.entry 5)) :
    let u := settled (verifyEffect contacts s)
    u.mdc.mode = .run ∧ u.vfu.debt = 0 ∧ u.vfu.round = 0 ∧ u.vfu.inHand = none ∧
      u.vfu.slot = some (max s.now due + s.tbs.core.slotInterval * 1000000) ∧ u.ste.settledMark = false ∧
      u.answered (answerFrame s.lnk r (.ack [])) ∧
      (s.ste.st = .idle →
        (s.tbs.runtime.idleLead ≠ 0 →
          u.vfu.idleLead = some (max s.now due + s.tbs.runtime.idleLead * 1000) ∧ u.vfu.idleMark = false) ∧
        (s.tbs.runtime.idleLead = 0 → u.vfu.idleMark = true)) := by
  intro u
  obtain ⟨-, matrix⟩ := settled_kept _ (verifyEffect_still (contacts := contacts) verifying (.inl front))
  obtain ⟨answered, -, inHand⟩ := settled_verify_agent (contacts := contacts) verifying front unheld
  obtain ⟨y, hy⟩ : ∃ y, y = endSequence (completeReading b contacts (s.advance due)) := ⟨_, rfl⟩
  have effect : verifyEffect contacts s = enterRunMode y := by
    rw [verifyEffect_agreed verifying agreed, State.verified, agreed, hy]
    exact completeCommand_entryLast (by simpa using hand)
  have clock : y.now = max s.now due := by simp [hy]
  have tables : y.tbs = s.tbs := by simp [hy]
  have engine : y.ste.st = s.ste.st := by simp [hy]
  have cleared : y.vfu.debt = 0 ∧ y.vfu.round = 0 ∧ y.vfu.inHand = none := by
    rw [hy]
    exact ⟨rfl, rfl, rfl⟩
  have serving' : (setMode .run y).mga = .serving r := by simpa [hy] using serving
  have lnk : (setMode .run y).lnk = s.lnk := by simp [hy]
  have offered := (answer_offered (.ack []) serving').1
  obtain ⟨mode, slot, mark, st, lead, agent⟩ := enterRunMode_entered y
  obtain ⟨debt, round, empty⟩ := enterRunMode_paid y
  rw [lnk] at offered
  rw [effect] at matrix answered inHand
  rw [clock, tables] at slot lead
  rw [engine] at lead st
  have same : u = settled (enterRunMode y) := congrArg settled effect
  rw [same]
  refine ⟨?_, matrix.debt.1.trans (debt.trans cleared.1), matrix.debt.2.trans (round.trans cleared.2.1),
    inHand.trans (empty.trans cleared.2.2), matrix.slot.trans slot, matrix.marked.1.trans mark,
    answered _ (agent.offered offered), fun idle => ?_⟩
  · exact matrix.mode.elim (fun stays => stays.trans mode) fun driven => by rw [mode] at driven; cases driven.1
  · have timer := (matrix.step (.inl (by rw [st, idle]; simp))).idleTimer
    rw [timer.1, timer.2]
    exact lead idle

/-- Any other verify of the ENTRY sequence, without a mismatch. -/
theorem entry_goesOn (verifying : s.vfu.activity = .verifying b .command due) (mode : s.mdc.mode = .entry o q)
    (agreed : bankMismatched s b contacts = false) {x : Bank} (hand : s.vfu.inHand = some (.entry x)) (next : x.val + 1 < 6) :
    let u := settled (verifyEffect contacts s)
    u.mdc.mode = .entry o q ∧ u.vfu.inHand = some (.entry ⟨x.val + 1, next⟩) ∧ u.mga = .serving r := by
  intro u
  obtain ⟨-, matrix⟩ := settled_kept _ (verifyEffect_still (contacts := contacts) verifying (.inl front))
  obtain ⟨-, serves, inHand⟩ := settled_verify_agent (contacts := contacts) verifying front unheld
  have effect : verifyEffect contacts s =
      { completeReading b contacts (s.advance due) with vfu.inHand := some (.entry ⟨x.val + 1, next⟩) } := by
    rw [verifyEffect_agreed verifying agreed, State.verified, agreed]
    exact completeCommand_entryNext (by simpa using hand) next
  have mode' : (verifyEffect contacts s).mdc.mode = .entry o q := by
    rw [effect]
    simpa using mode
  refine ⟨?_, inHand.trans (by rw [effect]), serves r (by rw [effect]; simpa using serving)⟩
  exact matrix.mode.elim (fun stays => stays.trans mode') fun driven => by rw [mode'] at driven; cases driven.1

/-- A mismatch in ENTRY. -/
theorem entry_fails {k : VerifyKind} (verifying : s.vfu.activity = .verifying b k due) (mode : s.mdc.mode = .entry o q)
    (mismatched : bankMismatched s b contacts = true) {x : Bank} (hand : s.vfu.inHand = some (.entry x)) :
    let u := settled (verifyEffect contacts s)
    u.vfu.inHand = none ∧ u.answered (answerFrame s.lnk r (.nak .verifyFailed)) ∧
      (o = .config → u.mdc.mode = .config ∧ u.vfu.slot = none) ∧
      (o = .safe → u.mdc.mode.isSafe = true ∧ u.isLatched .safeEntered = true) := by
  intro u
  obtain ⟨-, matrix⟩ := settled_kept _ (verifyEffect_still (contacts := contacts) verifying (.inl front))
  obtain ⟨answered, -, inHand⟩ := settled_verify_agent (contacts := contacts) verifying front unheld
  have requester := completeFor_entryMismatched (s := completeReading b contacts (s.advance due)) (by simpa using hand) k b
  rw [← mismatched] at requester
  change (s.verified contacts b k due).vfu.inHand = _ ∧ (s.verified contacts b k due).mga = _ ∧
    (s.verified contacts b k due).mdc.mode = _ at requester
  obtain ⟨hand', agent', mode'⟩ := requester
  have lnk : (signal (.mismatch b) (s.verified contacts b k due)).lnk = s.lnk := by
    simp [(verified_kept contacts b k due s).chain.1]
  have effect : verifyEffect contacts s = failEntry o (signal (.mismatch b) (s.verified contacts b k due)) := by
    rw [verifyEffect_mismatched verifying mismatched, takeMismatch]
    simp [mode', mode]
  have failed := failEntry_failed (s := signal (.mismatch b) (s.verified contacts b k due)) o (r := r) (x := x)
    (by simpa [agent'] using serving) (by simpa using hand')
  rw [← effect] at failed
  refine ⟨inHand.trans failed.hand, answered _ (by rw [← lnk]; exact failed.refused), fun fromConfig => ?_, fun fromSafe => ?_⟩
  · obtain ⟨config, stopped⟩ := failed.toConfig fromConfig
    exact ⟨matrix.mode.elim (fun stays => stays.trans config) fun driven => (by rw [config] at driven; cases driven.1),
      matrix.slot.trans stopped⟩
  · obtain ⟨driving, flag⟩ := failed.toSafe fromSafe
    refine ⟨?_, matrix.flags _ flag⟩
    obtain stays | driven := matrix.mode
    · rw [stays, driving]; rfl
    · rw [driven.2]; rfl

end

/-- Settles O35: the sequence's last verify, any other of its verifies, and a mismatch. -/
theorem entrySequenceDecidesTheMode : Obligations.EntrySequenceDecidesTheMode := by
  intro contacts b k due o q r s running front verifying mode serving unheld
  have own := exec_verifyComplete contacts running
  refine ⟨?_, ?_, fun mismatched x hand => ⟨_, own, entry_fails front serving unheld verifying mode mismatched hand⟩⟩
  · rintro agreed rfl hand
    exact ⟨_, own, entry_completes front serving unheld verifying agreed hand⟩
  · rintro agreed rfl x hand next
    exact ⟨_, own, entry_goesOn front serving unheld verifying mode agreed hand next⟩

end Sys2Proof.Machine
end

section
/-! PROOF. A completed verify corrects the position table by what the contacts show (R16, R23, R73, R91, R94, R95, R174; O31). -/

namespace Sys2Proof.Machine

/-! ## What the contacts show of an element (R91) -/

theorem sensedPosition_eq_some {c : ClassRec} {x : BitVec 7} {q : Pos} :
    sensedPosition c x = some q ↔ closedPositions c x = [q] := by
  unfold sensedPosition
  split
  · next p one => rw [one]; simp
  · next notOne => exact ⟨nofun, fun one => absurd one (notOne q)⟩

theorem sensedPosition_eq_none {c : ClassRec} {x : BitVec 7} :
    sensedPosition c x = none ↔ ∀ q, closedPositions c x ≠ [q] := by
  rw [Option.eq_none_iff_forall_ne_some]
  exact forall_congr' fun q => not_congr sensedPosition_eq_some

section
variable {t : Tbs} {i : Elem} (contacts : List (BitVec 7))

theorem sensed_of_read {c : ClassRec} (fitted : t.classOf i = some c) (sense : c.sense = true) :
    sensed t contacts i = some (sensedPosition c (contactsOf contacts i)) := by
  simp [sensed, Tbs.readClass, fitted, sense]

theorem sensed_of_unread (unread : ∀ c, t.classOf i = some c → c.sense = false) : sensed t contacts i = none := by
  cases fitted : t.classOf i with
  | none => simp [sensed, Tbs.readClass, fitted]
  | some c => simp [sensed, Tbs.readClass, fitted, unread c fitted]

/-- An element of which the contacts show something is one that is read. -/
theorem read_of_sensed {p : Option Pos} (shown : sensed t contacts i = some p) :
    ∃ c, t.classOf i = some c ∧ c.sense = true := by
  by_contra none_
  push Not at none_
  rw [sensed_of_unread contacts fun c fitted => Bool.eq_false_iff.mpr (none_ c fitted)] at shown
  cases shown

end

/-! ## The position table and the mismatch (R94, R95) -/

section
variable {s : State} {b : Bank} {contacts : List (BitVec 7)} {i : Elem}

theorem verifiedPositions_get (s : State) (b : Bank) (contacts : List (BitVec 7)) (i : Elem) :
    (verifiedPositions s b contacts)[i] =
      if bankOf i = b then (sensed s.tbs contacts i).getD s.csd.recorded[i] else s.csd.recorded[i] := by
  simp [verifiedPositions]

theorem verifiedPositions_of_read {c : ClassRec} (inBank : bankOf i = b) (fitted : s.tbs.classOf i = some c)
    (sense : c.sense = true) : (verifiedPositions s b contacts)[i] = sensedPosition c (contactsOf contacts i) := by
  rw [verifiedPositions_get, if_pos inBank, sensed_of_read contacts fitted sense, Option.getD_some]

theorem verifiedPositions_of_unread (unread : bankOf i ≠ b ∨ ∀ c, s.tbs.classOf i = some c → c.sense = false) :
    (verifiedPositions s b contacts)[i] = s.csd.recorded[i] := by
  rw [verifiedPositions_get]
  obtain elsewhere | unsensed := unread
  · rw [if_neg elsewhere]
  · rw [sensed_of_unread contacts unsensed, Option.getD_none, ite_self]

theorem elementMismatched_iff {c : ClassRec} (fitted : s.tbs.classOf i = some c) (sense : c.sense = true) :
    elementMismatched s contacts i = true ↔ (∀ q, closedPositions c (contactsOf contacts i) ≠ [q]) ∨
      ∃ q p, closedPositions c (contactsOf contacts i) = [q] ∧ s.csd.recorded[i] = some p ∧ p ≠ q := by
  unfold elementMismatched
  rw [sensed_of_read contacts fitted sense, ← sensedPosition_eq_none]
  simp only [← sensedPosition_eq_some]
  cases sensedPosition c (contactsOf contacts i) with
  | none => simp
  | some q => cases s.csd.recorded[i] <;> simp

theorem mem_elemsOf : i ∈ elemsOf b ↔ bankOf i = b := by
  simp [elemsOf, allElems]

/-- A bank mismatches where the verify read one of its elements indeterminate or away from its recorded position. -/
theorem bankMismatched_iff : bankMismatched s b contacts = true ↔
    ∃ (i : Elem) (c : ClassRec), bankOf i = b ∧ s.tbs.classOf i = some c ∧ c.sense = true ∧
      ((∀ q, closedPositions c (contactsOf contacts i) ≠ [q]) ∨
        ∃ q p, closedPositions c (contactsOf contacts i) = [q] ∧ s.csd.recorded[i] = some p ∧ p ≠ q) := by
  rw [bankMismatched, List.any_eq_true]
  constructor
  · rintro ⟨i, inBank, away⟩
    obtain ⟨p, shown⟩ : ∃ p, sensed s.tbs contacts i = some p := by
      cases shown : sensed s.tbs contacts i with
      | none => simp [elementMismatched, shown] at away
      | some p => exact ⟨p, rfl⟩
    obtain ⟨c, fitted, sense⟩ := read_of_sensed contacts shown
    exact ⟨i, c, mem_elemsOf.mp inBank, fitted, sense, (elementMismatched_iff fitted sense).mp away⟩
  · rintro ⟨i, c, inBank, fitted, sense, away⟩
    exact ⟨i, mem_elemsOf.mpr inBank, (elementMismatched_iff fitted sense).mpr away⟩

end

/-! ## The step's evaluation (R16, R23) -/

/-- In RUN a mismatch moves no mode (R116, R122). -/
theorem takeMismatch_run {s : State} (run : s.mdc.mode = .run) : takeMismatch s = s := by
  unfold takeMismatch
  rw [run]

section
variable {contacts : List (BitVec 7)} {b : Bank} {k : VerifyKind} {due : Nat} {s : State}

/-- A verify in RUN leaves the mode, the pending elements and the evaluation to what follows. -/
theorem verifyEffect_run (verifying : s.vfu.activity = .verifying b k due) (run : s.mdc.mode = .run) :
    (verifyEffect contacts s).mdc.mode = .run ∧ (verifyEffect contacts s).csd.pending = s.csd.pending ∧
      (verifyEffect contacts s).rev = s.rev ∧ (verifyEffect contacts s).ste.changing = s.ste.changing := by
  have kept := verified_kept contacts b k due s
  have mode : (s.verified contacts b k due).mdc.mode = .run :=
    (completeFor_mode _ _ _ _).elim (fun same => same.trans (by simpa using run)) id
  have pending : (s.verified contacts b k due).csd.pending = s.csd.pending :=
    kept.recorded.2.2.trans (by simp [completeReading])
  have rev : (s.verified contacts b k due).rev = s.rev := kept.evaluation.trans (by simp)
  have changing : (s.verified contacts b k due).ste.changing = s.ste.changing := kept.engine.2.2.trans (by simp)
  cases mismatched : bankMismatched s b contacts with
  | false =>
    rw [verifyEffect_agreed verifying mismatched]
    exact ⟨mode, pending, rev, changing⟩
  | true =>
    rw [verifyEffect_mismatched verifying mismatched, takeMismatch_run (by simpa using mode)]
    exact ⟨by simpa using mode, by simpa using pending, by simpa using rev, by simpa using changing⟩

theorem verify_follows (verifying : s.vfu.activity = .verifying b k due) (front : s.frontAtVerify k) (run : s.mdc.mode = .run)
    (empty : ∀ j : Elem, s.csd.pending[j] = none) : EvaluationFollows s (settled (verifyEffect contacts s)) := by
  obtain ⟨mode, pending, rev, changing⟩ := verifyEffect_run (contacts := contacts) verifying run
  exact .congr (by rw [rev]) changing
    (settled_follows (verifyEffect_still verifying front) (by rw [pending]; exact empty) (safeComplete_of_run mode))

end

/-! ## The obligation -/

/-- Settles O31: each element of the table from what the contacts show of it, the mismatch from the elements read, and the launch pass
and the evaluation from what follows the verify's own effect. -/
theorem verifyCorrectsPositions : Obligations.VerifyCorrectsPositions := by
  intro contacts b k due s running front verifying closed mismatched
  have still := verifyEffect_still (contacts := contacts) verifying front
  have done := verifyEffect_done (contacts := contacts) verifying
  obtain ⟨-, matrix⟩ := settled_kept _ still
  have table : (settled (verifyEffect contacts s)).csd.recorded = verifiedPositions s b contacts :=
    matrix.positions.trans done.recorded
  have trips : (settled (verifyEffect contacts s)).mdc.trips = _ := matrix.requests.1.trans done.trips
  have found : mismatched ↔ bankMismatched s b contacts = true := bankMismatched_iff.symm
  refine ⟨_, exec_verifyComplete contacts running, settled_keptAfterPass still done.passDue, ?_, ?_, ?_, ?_, ?_, ?_,
    verify_follows verifying front⟩
  · intro i c q inBank fitted sense one
    rw [table, verifiedPositions_of_read inBank fitted sense]
    exact sensedPosition_eq_some.mpr one
  · intro i c inBank fitted sense indeterminate
    rw [table, verifiedPositions_of_read inBank fitted sense]
    exact sensedPosition_eq_none.mpr indeterminate
  · intro i unread
    rw [table, verifiedPositions_of_unread unread]
  · exact fun away => matrix.flags _ (done.flag (found.mp away))
  · intro away mask
    rw [trips, if_pos ⟨found.mp away, mask⟩]
  · intro quiet
    have none_ : ¬(bankMismatched s b contacts = true ∧ s.tbs.runtime.tripMask.getLsbD b.val = true) := by
      rintro ⟨away, mask⟩
      exact quiet.elim (· (found.mpr away)) fun off => by rw [mask] at off; cases off
    rw [trips, if_neg none_, List.append_nil]

end Sys2Proof.Machine
end

section
/-! PROOF. Table validation (R110 to R112; O37): each check as a condition on the tables, and the first one that fails. -/

namespace Sys2Proof.Machine

/-! ## The lowest number that fails -/

/-- The numbers before one in ascending order are those below it. -/
theorem finRange_split {n : Nat} (i : Fin n) : ∃ l r, List.finRange n = l ++ i :: r ∧ ∀ j ∈ l, j < i := by
  have within : i.val < (List.finRange n).length := by simp
  refine ⟨(List.finRange n).take i.val, (List.finRange n).drop (i.val + 1), ?_, fun j mem => ?_⟩
  · have rest := List.drop_eq_getElem_cons within
    rw [List.getElem_finRange] at rest
    exact (List.take_append_drop i.val _).symm.trans (congrArg _ rest)
  · obtain ⟨k, below, rfl⟩ := List.mem_take_iff_getElem.mp mem
    have less : k < i.val := (Nat.lt_min.mp below).1
    simpa [Fin.lt_def] using less

theorem findSome_finRange {n : Nat} {α : Type} {f : Fin n → Option α} {i : Fin n} {x : α} (here : f i = some x)
    (lowest : ∀ j, j < i → f j = none) : (List.finRange n).findSome? f = some x := by
  obtain ⟨l, r, split, below⟩ := finRange_split i
  exact List.findSome?_eq_some_iff.mpr ⟨l, i, r, split, here, fun j mem => lowest j (below j mem)⟩

theorem find_finRange {n : Nat} {bad : Fin n → Bool} {i : Fin n} (here : bad i = true) (lowest : ∀ j, j < i → ¬bad j = true) :
    (List.finRange n).find? bad = some i := by
  obtain ⟨l, r, split, below⟩ := finRange_split i
  exact List.find?_eq_some_iff_append.mpr
    ⟨here, l, r, split, fun j mem => by simpa using lowest j (below j mem)⟩

theorem find_finRange_none {n : Nat} {bad : Fin n → Bool} : (List.finRange n).find? bad = none ↔ ∀ i, ¬bad i = true := by
  simp

/-! ## Checks 1 to 3 -/

section
variable {t : Tbs}

theorem elementAbsent_iff {e : Elem} : t.elementAbsent e = true ↔ t.elements[e] = .absent := by
  simp [Tbs.elementAbsent]

theorem classAbsent_iff {e : Elem} : t.classAbsent e = true ↔ ∃ c, t.elements[e] = .fitted c ∧ t.classes[c] = none := by
  unfold Tbs.classAbsent
  split
  · next c fitted => simp [fitted]
  · next absent => simp [absent]
  · next unfitted => simp [unfitted]

theorem classOverBudget_iff {c : Fin 8} :
    t.classOverBudget c = true ↔ ∃ r, t.classes[c] = some r ∧ t.core.budget < r.current := by
  unfold Tbs.classOverBudget
  split
  · next r present => simp [present]
  · next absent => simp [absent]

/-! ## Checks 4 to 6 (R111) -/

/-- A present link names the node. -/
def Tbs.LinkNames (t : Tbs) (i : Fin 160) (n : Node) : Prop := ∃ l, t.links[i] = some l ∧ (n = l.a ∨ n = l.b)

/-- LINK_UNFITTED. -/
def Tbs.LinkUnfitted (t : Tbs) (i : Fin 160) : Prop :=
  ∃ n e, t.LinkNames i n ∧ (n = .common e ∨ ∃ k, n = .throw e k) ∧ t.elements[e] = .notFitted

/-- LINK_THROW. -/
def Tbs.LinkBeyond (t : Tbs) (i : Fin 160) : Prop :=
  ∃ e k c, t.LinkNames i (.throw e k) ∧ t.classOf e = some c ∧ c.throws < k.val

/-- LINK_SHARED. -/
def Tbs.LinkSharing (t : Tbs) (i : Fin 160) : Prop := ∃ n j, t.LinkNames i n ∧ j < i ∧ t.LinkNames j n

theorem nodeUnfitted_iff {n : Node} :
    t.nodeUnfitted n = true ↔ ∃ e, (n = .common e ∨ ∃ k, n = .throw e k) ∧ t.elements[e] = .notFitted := by
  cases n <;> simp [Tbs.nodeUnfitted]

theorem nodeBeyondThrows_iff {n : Node} :
    t.nodeBeyondThrows n = true ↔ ∃ e k c, n = .throw e k ∧ t.classOf e = some c ∧ c.throws < k.val := by
  cases n with
  | throw e k =>
    unfold Tbs.nodeBeyondThrows
    dsimp only
    cases fitted : t.classOf e <;> simp [fitted]
  | source | terminal | common => simp [Tbs.nodeBeyondThrows]

section
variable {i : Fin 160} {l : LinkRec} (present : t.links[i] = some l)
include present

theorem linkNames_iff {n : Node} : t.LinkNames i n ↔ n = l.a ∨ n = l.b := by
  simp [Tbs.LinkNames, present]

theorem linkUnfitted_iff : (t.nodeUnfitted l.a || t.nodeUnfitted l.b) = true ↔ t.LinkUnfitted i := by
  simp only [Tbs.LinkUnfitted, linkNames_iff present, Bool.or_eq_true, nodeUnfitted_iff]
  constructor
  · rintro (⟨e, node, unfitted⟩ | ⟨e, node, unfitted⟩)
    exacts [⟨l.a, e, .inl rfl, node, unfitted⟩, ⟨l.b, e, .inr rfl, node, unfitted⟩]
  · rintro ⟨n, e, rfl | rfl, node, unfitted⟩
    exacts [.inl ⟨e, node, unfitted⟩, .inr ⟨e, node, unfitted⟩]

theorem linkBeyond_iff : (t.nodeBeyondThrows l.a || t.nodeBeyondThrows l.b) = true ↔ t.LinkBeyond i := by
  simp only [Tbs.LinkBeyond, linkNames_iff present, Bool.or_eq_true, nodeBeyondThrows_iff]
  constructor
  · rintro (⟨e, k, c, node, beyond⟩ | ⟨e, k, c, node, beyond⟩)
    exacts [⟨e, k, c, .inl node.symm, beyond⟩, ⟨e, k, c, .inr node.symm, beyond⟩]
  · rintro ⟨e, k, c, node | node, beyond⟩
    exacts [.inl ⟨e, k, c, node.symm, beyond⟩, .inr ⟨e, k, c, node.symm, beyond⟩]

theorem linkShared_iff : t.linkShared i l = true ↔ t.LinkSharing i := by
  have named : ∀ {m : LinkRec} {n : Node}, m.names n = true ↔ n = m.a ∨ n = m.b := by
    intro m n
    rw [LinkRec.names, Bool.or_eq_true, beq_iff_eq, beq_iff_eq, eq_comm, @eq_comm _ m.b]
  simp only [Tbs.linkShared, List.any_eq_true, Bool.and_eq_true, decide_eq_true_eq, Option.any_eq_true, Bool.or_eq_true, named,
    Tbs.LinkSharing, linkNames_iff present]
  constructor
  · rintro ⟨j, -, below, m, other, node | node⟩
    exacts [⟨l.a, j, .inl rfl, below, m, other, node⟩, ⟨l.b, j, .inr rfl, below, m, other, node⟩]
  · rintro ⟨n, j, rfl | rfl, below, m, other, node⟩
    exacts [⟨j, List.mem_finRange j, below, m, other, .inl node⟩, ⟨j, List.mem_finRange j, below, m, other, .inr node⟩]

end

/-- The first test of R111 that a link fails. -/
theorem linkFault_cases (i : Fin 160) :
    (t.LinkUnfitted i ∧ t.linkFault i = some 4) ∨ (¬t.LinkUnfitted i ∧ t.LinkBeyond i ∧ t.linkFault i = some 5) ∨
      (¬t.LinkUnfitted i ∧ ¬t.LinkBeyond i ∧ t.LinkSharing i ∧ t.linkFault i = some 6) ∨
      (¬t.LinkUnfitted i ∧ ¬t.LinkBeyond i ∧ ¬t.LinkSharing i ∧ t.linkFault i = none) := by
  cases present : t.links[i] with
  | none =>
    have unnamed : ∀ n, ¬t.LinkNames i n := by simp [Tbs.LinkNames, present]
    refine .inr (.inr (.inr ⟨?_, ?_, ?_, by simp [Tbs.linkFault, present]⟩))
    · rintro ⟨n, -, named, -⟩
      exact unnamed n named
    · rintro ⟨e, k, -, named, -⟩
      exact unnamed _ named
    · rintro ⟨n, -, named, -⟩
      exact unnamed n named
  | some l =>
    simp only [← linkUnfitted_iff present, ← linkBeyond_iff present, ← linkShared_iff present, Tbs.linkFault, present]
    by_cases unfitted : (t.nodeUnfitted l.a || t.nodeUnfitted l.b) = true
    · exact .inl ⟨unfitted, if_pos unfitted⟩
    · refine .inr ?_
      rw [if_neg unfitted]
      by_cases beyond : (t.nodeBeyondThrows l.a || t.nodeBeyondThrows l.b) = true
      · exact .inl ⟨unfitted, beyond, if_pos beyond⟩
      · refine .inr ?_
        rw [if_neg beyond]
        by_cases shared : t.linkShared i l = true
        · exact .inl ⟨unfitted, beyond, shared, if_pos shared⟩
        · exact .inr ⟨unfitted, beyond, shared, if_neg shared⟩

/-- A link fails some test of R111. -/
def Tbs.LinkFaulty (t : Tbs) (i : Fin 160) : Prop := t.LinkUnfitted i ∨ t.LinkBeyond i ∨ t.LinkSharing i

theorem linkFault_eq_none_iff {i : Fin 160} : t.linkFault i = none ↔ ¬t.LinkFaulty i := by
  unfold Tbs.LinkFaulty
  obtain ⟨h, fault⟩ | ⟨-, h, fault⟩ | ⟨-, -, h, fault⟩ | ⟨h, h', h'', fault⟩ := linkFault_cases (t := t) i <;>
    simp [*]

theorem failingLink_eq_none_iff : t.failingLink = none ↔ ∀ i, ¬t.LinkFaulty i := by
  simp only [Tbs.failingLink, List.findSome?_eq_none_iff, Option.map_eq_none_iff, linkFault_eq_none_iff]
  exact ⟨fun h i => h i (List.mem_finRange i), fun h i _ => h i⟩

theorem failingLink_of_fault {i : Fin 160} {c : Nat} (fault : t.linkFault i = some c) (lowest : ∀ j, j < i → ¬t.LinkFaulty j) :
    t.failingLink = some (c, i.val) :=
  findSome_finRange (i := i) (by simp [fault]) fun j below => by simp [linkFault_eq_none_iff.mpr (lowest j below)]

/-! ## Checks 7 to 11 (R112) -/

/-- PATH_INVALID. -/
def Tbs.PathInvalid (t : Tbs) (k : Fin 256) : Prop :=
  ∃ x e, t.paths[k] = some x ∧ x.mask.getLsbD (bankOf e).val = true ∧ x.targets[e] ∉ t.validPositions e

theorem pathInvalid_iff {k : Fin 256} : t.paths[k].any (fun p => !t.pathValid p) = true ↔ t.PathInvalid k := by
  cases present : t.paths[k] with
  | none => simp [Tbs.PathInvalid, present]
  | some x => simp [Tbs.PathInvalid, present, Tbs.pathValid, allElems, PathRec.masks]

theorem failingPath_eq_none_iff : t.failingPath = none ↔ ∀ k, ¬t.PathInvalid k := by
  simp only [Tbs.failingPath, Option.map_eq_none_iff, find_finRange_none, pathInvalid_iff]

theorem failingPath_of_invalid {k : Fin 256} (invalid : t.PathInvalid k) (lowest : ∀ x, x < k → ¬t.PathInvalid x) :
    t.failingPath = some (10, k.val) := by
  rw [Tbs.failingPath, find_finRange (pathInvalid_iff.mpr invalid) fun x below => mt pathInvalid_iff.mp (lowest x below)]
  rfl

theorem failingSpan_eq_none_iff {p : PathRec} : t.failingSpan p = none ↔ spanVerdict t (safeSets p) = .pass := by
  unfold Tbs.failingSpan
  split <;> simp [*]

/-- The checks that need a safe record, once it is present and drives every bank. -/
theorem failingPaths_of_safe {n : Fin 256} {p : PathRec} (index : t.core.safeIndex = some n) (path : t.paths[n] = some p)
    (mask : p.mask = 0b111111#6) : t.failingPaths = t.failingPath.orElse fun _ => t.failingSpan p := by
  have full : p.mask = BitVec.allOnes 6 := mask
  simp [Tbs.failingPaths, index, path, full]

theorem failingPaths_eq_none_iff : t.failingPaths = none ↔ ∃ n p, t.core.safeIndex = some n ∧ t.paths[n] = some p ∧
    p.mask = 0b111111#6 ∧ (∀ k, ¬t.PathInvalid k) ∧ spanVerdict t (safeSets p) = .pass := by
  constructor
  · intro passes
    unfold Tbs.failingPaths at passes
    split at passes
    · cases passes
    · next n index =>
      split at passes
      · cases passes
      · next p path =>
        split at passes
        · cases passes
        · next full =>
          simp only [Option.orElse_eq_or, Option.or_eq_none_iff, failingPath_eq_none_iff, failingSpan_eq_none_iff] at passes
          exact ⟨n, p, index, path, not_not.mp full, passes⟩
  · rintro ⟨n, p, index, path, mask, valid, span⟩
    simp only [failingPaths_of_safe index path mask, Option.orElse_eq_or, Option.or_eq_none_iff, failingPath_eq_none_iff,
      failingSpan_eq_none_iff]
    exact ⟨valid, span⟩

/-! ## All checks in their order (R110) -/

/-- Checks 1 to 6 find nothing. -/
structure Tbs.Sound (t : Tbs) : Prop where
  present : ∀ e : Elem, ¬t.elements[e] = .absent
  classed : ∀ e : Elem, ¬∃ c, t.elements[e] = .fitted c ∧ t.classes[c] = none
  budget : ∀ c : Fin 8, ¬∃ r, t.classes[c] = some r ∧ t.core.budget < r.current
  links : ∀ i, ¬t.LinkFaulty i

theorem failingElement_none {code : Nat} {bad : Elem → Bool} {P : Elem → Prop} (meaning : ∀ e, bad e = true ↔ P e) :
    failingElement code bad = none ↔ ∀ e, ¬P e := by
  simp only [failingElement, Option.map_eq_none_iff, allElems, find_finRange_none, meaning]

theorem failingElement_first {code : Nat} {bad : Elem → Bool} {P : Elem → Prop} (meaning : ∀ e, bad e = true ↔ P e) {e : Elem}
    (here : P e) (lowest : ∀ x, x < e → ¬P x) : failingElement code bad = some (code, e.val) := by
  rw [failingElement, allElems, find_finRange ((meaning e).mpr here) fun x below => mt (meaning x).mp (lowest x below)]
  rfl

theorem budget_none : (((List.finRange 8).find? t.classOverBudget).map (fun c => (3, c.val)) : Option (Nat × Nat)) = none ↔
    ∀ c : Fin 8, ¬∃ r, t.classes[c] = some r ∧ t.core.budget < r.current := by
  simp only [Option.map_eq_none_iff, find_finRange_none, classOverBudget_iff]

theorem validate_eq : validate t = (failingElement 1 t.elementAbsent).or ((failingElement 2 t.classAbsent).or
    ((((List.finRange 8).find? t.classOverBudget).map (fun c => (3, c.val))).or (t.failingLink.or t.failingPaths))) := by
  simp only [validate, Option.orElse_eq_or]

theorem validate_eq_none_iff : validate t = none ↔ t.Sound ∧ t.failingPaths = none := by
  simp only [validate_eq, Option.or_eq_none_iff, failingElement_none fun _ => elementAbsent_iff,
    failingElement_none fun _ => classAbsent_iff, budget_none, failingLink_eq_none_iff]
  exact ⟨fun ⟨a, b, c, d, e⟩ => ⟨⟨a, b, c, d⟩, e⟩, fun ⟨⟨a, b, c, d⟩, e⟩ => ⟨a, b, c, d, e⟩⟩

/-- Once the elements and classes are in order, the links are checked, and after them the records. -/
theorem validate_of_classes (present : ∀ e : Elem, ¬t.elements[e] = .absent)
    (classed : ∀ e : Elem, ¬∃ c, t.elements[e] = .fitted c ∧ t.classes[c] = none)
    (budget : ∀ c : Fin 8, ¬∃ r, t.classes[c] = some r ∧ t.core.budget < r.current) :
    validate t = t.failingLink.or t.failingPaths := by
  rw [validate_eq, (failingElement_none (bad := t.elementAbsent) fun _ => elementAbsent_iff).mpr present,
    (failingElement_none (bad := t.classAbsent) fun _ => classAbsent_iff).mpr classed, budget_none.mpr budget]
  simp

theorem validate_of_sound (sound : t.Sound) : validate t = t.failingPaths := by
  rw [validate_of_classes sound.present sound.classed sound.budget, failingLink_eq_none_iff.mpr sound.links]
  simp

end

/-- Settles O37: the checks of R110 to R112 one after another, each with the earlier ones passed. -/
theorem validTablesMeetEveryCheck : Obligations.ValidTablesMeetEveryCheck := by
  intro t names absent classless excessive unfitted beyond shared faulty invalid span sound
  have soundly : sound → t.Sound := fun ⟨present, classed, budget, links⟩ => ⟨present, classed, budget, links⟩
  refine ⟨validate_eq_none_iff.trans (and_congr ⟨fun h => ⟨h.present, h.classed, h.budget, h.links⟩, soundly⟩
    failingPaths_eq_none_iff), fun e here lowest => ?_, fun e present here lowest => ?_, fun c present classed here lowest => ?_,
    fun i present classed budget lowest => ?_, fun h => ⟨fun noIndex => ?_, fun n index => ⟨fun noPath => ?_, fun p path =>
      ⟨fun mask => ?_, fun mask => ⟨fun k here lowest => ?_, fun x valid verdict => ?_⟩⟩⟩⟩⟩
  · rw [validate_eq, failingElement_first (bad := t.elementAbsent) (fun _ => elementAbsent_iff) here lowest]
    rfl
  · rw [validate_eq, (failingElement_none (bad := t.elementAbsent) fun _ => elementAbsent_iff).mpr present,
      failingElement_first (bad := t.classAbsent) (P := classless) (fun _ => classAbsent_iff) here lowest]
    rfl
  · rw [validate_eq, (failingElement_none (bad := t.elementAbsent) fun _ => elementAbsent_iff).mpr present,
      (failingElement_none (bad := t.classAbsent) fun _ => classAbsent_iff).mpr classed,
      find_finRange (classOverBudget_iff.mpr here) fun x below => mt classOverBudget_iff.mp (lowest x below)]
    rfl
  · have first : ∀ {code}, t.linkFault i = some code → validate t = some (code, i.val) := fun fault => by
      rw [validate_of_classes present classed budget, failingLink_of_fault fault lowest]
      rfl
    obtain ⟨h, fault⟩ | ⟨h, h', fault⟩ | ⟨h, h', h'', fault⟩ | ⟨h, h', h'', -⟩ := linkFault_cases (t := t) i
    · exact ⟨fun _ => first fault, fun fits => absurd h fits, fun fits => absurd h fits⟩
    · exact ⟨fun un => absurd un h, fun _ _ => first fault, fun _ within => absurd h' within⟩
    · exact ⟨fun un => absurd un h, fun _ far => absurd far h', fun _ _ _ => first fault⟩
    · exact ⟨fun un => absurd un h, fun _ far => absurd far h', fun _ _ both => absurd both h''⟩
  · simp [validate_of_sound (soundly h), Tbs.failingPaths, noIndex]
  · simp [validate_of_sound (soundly h), Tbs.failingPaths, index, noPath]
  · have partial_ : p.mask ≠ BitVec.allOnes 6 := mask
    rw [validate_of_sound (soundly h)]
    simp only [Tbs.failingPaths, index, path, if_pos partial_]
  · rw [validate_of_sound (soundly h), failingPaths_of_safe index path mask, failingPath_of_invalid here lowest]
    rfl
  · have named : t.failingSpan p = some (11, x.val) := by
      have met : spanVerdict t (safeSets p) = .interlock x := verdict
      rw [Tbs.failingSpan, met]
    rw [validate_of_sound (soundly h), failingPaths_of_safe index path mask, failingPath_eq_none_iff.mpr valid, named]
    rfl

end Sys2Proof.Machine
end

section
/-! SUPPORT. The consequences of an event, one after another, as the Verify Unit, the agent and a waiting ALERT frame see them (R73, R92,
R100, R151, R172): `Drawn` says what one consequence does, and `Settles` that the Verify Unit has been asked before the event is complete. -/

namespace Sys2Proof.Machine

/-! ## A waiting ALERT frame (R172) -/

/-- An up-to-date ALERT frame that waits goes on waiting, up to date, its raised set growing at most. -/
def AlertFollows (s t : State) : Prop :=
  ∀ a, s.rtq.alert = some a → a.mode = s.mdc.mode.shown → a.flags = s.evu.latched →
    ∃ b, t.rtq.alert = some b ∧ b.tag = a.tag ∧ b.mode = t.mdc.mode.shown ∧ b.flags = t.evu.latched ∧
      a.raised ||| b.raised = b.raised

theorem AlertFollows.ofSame {s t : State} (alert : t.rtq.alert = s.rtq.alert) (mode : t.mdc.mode = s.mdc.mode)
    (flags : t.evu.latched = s.evu.latched) : AlertFollows s t := fun a waits shown latched =>
  ⟨a, alert.trans waits, rfl, by rw [mode, shown], by rw [flags, latched], BitVec.or_self⟩

theorem AlertFollows.trans {s t u : State} (h : AlertFollows s t) (g : AlertFollows t u) : AlertFollows s u := by
  intro a waits shown latched
  obtain ⟨b, waits', tag, shown', latched', grows⟩ := h a waits shown latched
  obtain ⟨c, waits'', tag', shown'', latched'', grows'⟩ := g b waits' shown' latched'
  refine ⟨c, waits'', tag'.trans tag, shown'', latched'', ?_⟩
  rw [← grows', ← BitVec.or_assoc, grows]

theorem signal_alert (f : Flag) (s : State) : AlertFollows s (signal f s) := by
  have latched : AlertFollows s (latchFlag f s) := by
    unfold latchFlag
    split
    · exact .ofSame rfl rfl rfl
    · intro a waits _ _
      unfold raiseAlert
      dsimp only
      rw [waits]
      exact ⟨_, rfl, rfl, rfl, rfl, by rw [← BitVec.or_assoc, BitVec.or_self]⟩
  exact latched.trans (.ofSame (by simp [signal]) (by simp [signal]) (by simp [signal]))

theorem setMode_alert {m : Mode} {s : State} {a : AlertFrame} (waits : s.rtq.alert = some a) :
    (setMode m s).rtq.alert = some { a with flags := s.evu.latched, mode := m.shown } := by
  simp [setMode, refreshAlert, waits]

theorem hotEvent_alert (s : State) : AlertFollows s (hotEvent s) := by
  have counted : AlertFollows s { s with evu.hotCount := countUp s.evu.hotCount } := .ofSame rfl rfl rfl
  refine (counted.trans (signal_alert .hot _)).trans ?_
  unfold hotEvent
  dsimp only
  split <;> exact .ofSame rfl rfl rfl

theorem wearEvent_alert (s : State) : AlertFollows s (wearEvent s) := by
  refine (signal_alert .wear s).trans ?_
  unfold wearEvent
  dsimp only
  split <;> exact .ofSame rfl rfl rfl

/-- What a launch signals joins the raised set. -/
theorem launch_alert (d : Drive) (e : Elem) (c : ClassRec) (q : Pos) (s : State) : AlertFollows s (launch d e c q s) := by
  have recorded : AlertFollows s (launchRecord d e c q s) := .ofSame rfl rfl rfl
  have worn : AlertFollows s (launchWorn d e c q s) := by
    unfold launchWorn
    split
    · exact recorded.trans (wearEvent_alert _)
    · exact recorded
  rw [launch_eq]
  split
  · exact worn.trans (hotEvent_alert _)
  · exact worn

/-! ## A launch pass -/

/-- A pass does not launch into a bank that the Verify Unit holds (R72). -/
theorem considerLaunch_spares {d : Drive} {s : State} {e i : Elem} (held : s.vfu.activity.freeOf (bankOf i) = false) :
    (considerLaunch d s e).csd.pulses[i] = s.csd.pulses[i] := by
  obtain ⟨q, c, -, -, may, h⟩ | ⟨h, -⟩ := considerLaunch_cases d s e <;> rw [h]
  have other : i ≠ e := by
    rintro rfl
    have free := (eligible_iff.mp may).2.2.2.2.2.1
    rw [held] at free
    cases free
  rw [launch_pulses, getElem_set_other _ _ other]

theorem foldLaunch_spares {d : Drive} (l : List Elem) {s : State} {i : Elem}
    (held : s.vfu.activity.freeOf (bankOf i) = false) :
    (l.foldl (considerLaunch d) s).csd.pulses[i] = s.csd.pulses[i] := by
  induction l generalizing s with
  | nil => rfl
  | cons e l ih =>
    have same := (considerLaunch_passed d s e).vfu
    exact (ih (by rw [same]; exact held)).trans (considerLaunch_spares held)

theorem foldLaunch_alert (d : Drive) (l : List Elem) (s : State) : AlertFollows s (l.foldl (considerLaunch d) s) := by
  induction l generalizing s with
  | nil => exact .ofSame rfl rfl rfl
  | cons e l ih =>
    refine AlertFollows.trans ?_ (ih _)
    obtain ⟨q, c, -, -, -, h⟩ | ⟨h, -⟩ := considerLaunch_cases d s e <;> rw [h]
    exacts [launch_alert d e c q s, .ofSame rfl rfl rfl]

/-- What a pass leaves alone. -/
structure PassMade (s t : State) : Prop where
  done : t.csd.passDue = false
  clock : t.now = s.now
  unit : t.vfu = s.vfu
  control : t.mdc = s.mdc
  agent : t.mga = s.mga
  held : t.rtq.responseHeld = s.rtq.responseHeld
  engine : t.ste.st = s.ste.st
  recovery : t.csd.recoveryUntil = s.csd.recoveryUntil
  spared : ∀ i : Elem, s.vfu.activity.freeOf (bankOf i) = false → t.csd.pulses[i] = s.csd.pulses[i]
  alert : AlertFollows s t

/-- The elements' turns in a pass. -/
theorem foldLaunch_made (d : Drive) (l : List Elem) {s : State} (undue : s.csd.passDue = false) :
    PassMade s (l.foldl (considerLaunch d) s) := by
  have passed := foldLaunch_passed d l s
  exact
    { done := passed.passDue.trans undue
      clock := passed.now
      unit := passed.vfu
      control := passed.mdc
      agent := passed.mga
      held := by rw [passed.outbox]
      engine := by rw [passed.engine]
      recovery := passed.recovery.1
      spared := fun _ held => foldLaunch_spares l held
      alert := foldLaunch_alert d l s }

theorem launchPass_made (s : State) : PassMade s (launchPass s) := by
  unfold launchPass
  dsimp only
  split
  · exact ⟨rfl, rfl, rfl, rfl, rfl, rfl, rfl, rfl, fun _ _ => rfl, .ofSame rfl rfl rfl⟩
  · next d _ =>
    have made := foldLaunch_made d allElems (s := { s with csd.passDue := false }) rfl
    generalize allElems.foldl (considerLaunch d) { s with csd.passDue := false } = t at made
    unfold settleDrive
    split <;> exact ⟨made.done, made.clock, made.unit, made.control, made.agent, made.held, made.engine, made.recovery,
      made.spared, made.alert⟩

/-- A pass that is due is made, or the Verify Unit comes first (R74). -/
theorem makePass_cases {s t : State} (h : makePass s = some t) : s.csd.passDue = true ∧
    (t = launchPass s ∨ t = launchPass s.chose ∨ ∃ v, verifyAction s = some v ∧ t = v.chose) := by
  unfold makePass at h
  split at h
  · next due =>
    refine ⟨due, ?_⟩
    split at h
    · exact .inl (Option.some.inj h).symm
    · next v action =>
      split at h
      · split at h
        · exact .inr (.inr ⟨v, action, (Option.some.inj h).symm⟩)
        · exact .inr (.inl (Option.some.inj h).symm)
      · exact .inl (Option.some.inj h).symm
  · cases h

/-- Whether a bank is idle depends on its pulses, its recovery and the instant (R89). -/
theorem bankIdle_congr {c d : Csd} {b : Bank} {n : Nat} (pulses : ∀ i : Elem, bankOf i = b → d.pulses[i] = c.pulses[i])
    (recovery : d.recoveryUntil = c.recoveryUntil) : d.bankIdle b n = c.bankIdle b n := by
  have moves : (elemsOf b).any d.inTransit = (elemsOf b).any c.inTransit := by
    rw [Bool.eq_iff_iff, List.any_eq_true, List.any_eq_true]
    refine exists_congr fun i => and_congr_right fun mem => ?_
    unfold Csd.inTransit
    rw [pulses i (mem_elemsOf.mp mem)]
  unfold Csd.bankIdle Csd.recovered
  rw [moves, recovery]

/-! ## One consequence -/

/-- What one consequence of an event does, beside what it leaves alone on the matrix side. -/
structure Drawn (s t : State) : Prop where
  matrix : KeptMatrix s t
  activity : t.vfu.activity = s.vfu.activity ∨ ∃ v, verifyAction s = some v ∧ t.vfu.activity = v.vfu.activity
  claims : ∀ b k, s.vfu.activity = .claimed b k → t.csd.bankIdle b t.now = s.csd.bankIdle b s.now
  resting : s.mdc.mode = .config → t.vfu.idleLead = s.vfu.idleLead ∧ t.vfu.idleMark = s.vfu.idleMark
  agent : ∀ r, t.mga = .serving r → s.mga = .serving r
  room : s.outboxRoom = false → t.outboxRoom = false
  alert : s.outboxRoom = false → AlertFollows s t

/-- A consequence that moves no coil, no flag and no mode, and leaves the Verify Unit alone. -/
theorem Drawn.ofSame {s t : State} (matrix : KeptMatrix s t) (csd : t.csd.pulses = s.csd.pulses)
    (vfu : t.vfu = s.vfu) (agent : ∀ r, t.mga = .serving r → s.mga = .serving r)
    (room : s.outboxRoom = false → t.outboxRoom = false) (alert : s.outboxRoom = false → AlertFollows s t) : Drawn s t where
  matrix := matrix
  activity := .inl (by rw [vfu])
  claims b k _ := by rw [matrix.clock]; exact bankIdle_congr (fun i _ => by rw [csd]) matrix.recovery.1
  resting _ := by simp [vfu]
  agent := agent
  room := room
  alert := alert

/-- The Verify Unit's choice or start, whether or not it was a free choice. -/
theorem Drawn.ofAction {s t v : State} (action : verifyAction s = some v) (h : t = v ∨ t = v.chose) : Drawn s t := by
  have kept := verifyAction_kept action
  obtain ⟨-, a, rfl⟩ := verifyAction_eq action
  have matrix : KeptMatrix s t := by
    obtain rfl | rfl := h
    exacts [kept.2, (kept.trans (.chose _)).2]
  obtain rfl | rfl := h <;>
    exact ⟨matrix, .inr ⟨_, action, rfl⟩, fun _ _ _ => rfl, fun _ => ⟨rfl, rfl⟩, fun _ => id, id, fun _ => .ofSame rfl rfl rfl⟩

/-- Room in the Return Queue does not come back while frames only join it (R145). -/
theorem KeptChain.outboxRoom {s t : State} (h : KeptChain s t) (full : s.outboxRoom = false) : t.outboxRoom = false := by
  have grows := h.back.length_le
  have free : t.retFree ≤ s.retFree := Nat.sub_le_sub_left grows _
  simp only [State.outboxRoom, h.straps.2.1, decide_eq_false_iff_not, Nat.not_lt] at full ⊢
  exact free.trans full

theorem launchPass_drawn {s x : State} (same : x = s ∨ x = s.chose) : Drawn s (launchPass x) := by
  have kept : Kept s x := by obtain rfl | rfl := same; exacts [.refl _, .chose _]
  have blocks : x.vfu = s.vfu ∧ x.mga = s.mga ∧ x.csd = s.csd ∧ x.now = s.now ∧ AlertFollows s x := by
    obtain rfl | rfl := same <;> exact ⟨rfl, rfl, rfl, rfl, .ofSame rfl rfl rfl⟩
  obtain ⟨vfu, mga, csd, now, alert⟩ := blocks
  have made := launchPass_made x
  have all := kept.trans (launchPass_kept x)
  exact
    { matrix := all.2
      activity := .inl (by rw [made.unit, vfu])
      claims := fun b k claimed => by
        rw [made.clock, now, ← csd]
        refine bankIdle_congr (fun i inBank => made.spared i ?_) made.recovery
        rw [vfu, claimed, inBank]
        simp [Activity.freeOf]
      resting := fun _ => by rw [made.unit, vfu]; exact ⟨rfl, rfl⟩
      agent := fun r serving => by rwa [made.agent, mga] at serving
      room := all.1.outboxRoom
      alert := fun _ => alert.trans made.alert }

theorem offerReport_drawn {s t : State} (h : offerReport s = some t) : Drawn s t := by
  have kept := offerReport_kept h
  have pulses : t.csd = s.csd := by simp [offerReport_frame s h]
  have unit : s.mdc.mode = .config → t.vfu = s.vfu := by
    intro config
    unfold offerReport at h
    split at h
    · cases h
      simp [enterIdle, config, Mode.isRunOrSafe]
    · cases h
  have alert : t.rtq.alert = s.rtq.alert := by
    unfold offerReport at h
    split at h
    · cases h
      simp
    · cases h
  exact
    { matrix := kept.2
      activity := .inl (offerReport_activity h)
      claims := fun b _ _ => by rw [kept.2.clock, pulses]
      resting := fun config => by simp [unit config]
      agent := fun r serving => by simpa [offerReport_frame s h] using serving
      room := kept.1.outboxRoom
      alert := fun _ => .ofSame alert (by simp [offerReport_frame s h]) (by simp [offerReport_frame s h]) }

theorem dealAtChainEnd_drawn {s t : State} (h : dealAtChainEnd s = some t) : Drawn s t := by
  have kept := dealAtChainEnd_kept h
  have same := dealAtChainEnd_frame s h
  refine .ofSame kept.2 (by simp [same]) (by simp [same]) (by simp [same]) kept.1.outboxRoom fun _ =>
    .ofSame ?_ (by simp [same]) (by simp [same])
  unfold dealAtChainEnd at h
  repeat' split at h
  all_goals cases h
  all_goals simp

/-- A completed safe drive without the redrive mark leads to SAFE_HELD; under the mark it is formed afresh (R121). -/
theorem completeSafe_cases {s t : State} (h : completeSafe s = some t) : s.mdc.mode = .safe .driving ∧
    ((s.mdc.redrive = true ∧ t = formSafeDrive { s with mdc.redrive := false }) ∨
      (s.mdc.redrive = false ∧ t = setMode (.safe .held) s)) := by
  unfold completeSafe at h
  split at h
  · next complete =>
    have mode : s.mdc.mode = .safe .driving := by
      simp only [safeComplete, Bool.and_eq_true, beq_iff_eq] at complete
      exact complete.1.1.1
    refine ⟨mode, ?_⟩
    split at h
    · next mark => exact .inl ⟨mark, (Option.some.inj h).symm⟩
    · next clear => exact .inr ⟨by simpa using clear, (Option.some.inj h).symm⟩
  · cases h

theorem completeSafe_drawn {s t : State} (h : completeSafe s = some t) : Drawn s t := by
  have kept := completeSafe_kept h
  obtain ⟨-, ⟨-, rfl⟩ | ⟨-, rfl⟩⟩ := completeSafe_cases h
  · exact .ofSame kept.2 (formSafeDrive_csd _).1 (by simp) (by simp) kept.1.outboxRoom fun _ =>
      .ofSame (by simp) (by simp [formSafeDrive_mdc]) (by simp)
  · refine .ofSame kept.2 (by simp) (by simp) (by simp) kept.1.outboxRoom fun _ a waits _ _ => ?_
    exact ⟨_, setMode_alert waits, rfl, rfl, by simp, BitVec.or_self⟩

theorem endHold_drawn {s t : State} (h : endHold s = some t) : Drawn s t := by
  have kept := endHold_kept h
  have same := endHold_frame s h
  unfold endHold at h
  split at h <;> cases h
  exact .ofSame kept.2 rfl rfl nofun kept.1.outboxRoom fun _ => .ofSame rfl rfl rfl

theorem offerAnswer_drawn {s t : State} (h : offerAnswer s = some t) : Drawn s t := by
  have kept := offerAnswer_kept h
  unfold offerAnswer at h
  split at h <;> cases h
  exact .ofSame kept.2 rfl rfl nofun kept.1.outboxRoom fun _ => .ofSame rfl rfl rfl

theorem restartEvaluation_drawn {s t : State} (h : restartEvaluation s = some t) : Drawn s t := by
  have kept := restartEvaluation_kept h
  have same := restartEvaluation_frame s h
  exact .ofSame kept.2 (by simp [same]) (by simp [same]) (by simp [same]) kept.1.outboxRoom fun _ =>
    .ofSame (by simp [same]) (by simp [same]) (by simp [same])

theorem makePass_drawn {s t : State} (h : makePass s = some t) : Drawn s t := by
  obtain ⟨-, rfl | rfl | ⟨v, action, rfl⟩⟩ := makePass_cases h
  · exact launchPass_drawn (.inl rfl)
  · exact launchPass_drawn (.inr rfl)
  · exact .ofAction action (.inr rfl)

/-- An admission pass finds room, so a waiting ALERT frame that had none is not its matter (R145). -/
theorem admissionPass_drawn {s t : State} (h : admissionPass s = some t) : Drawn s t := by
  have kept := admissionPass_kept h
  have same := admissionPass_frame s h
  refine .ofSame kept.2 (by simp [same]) (by simp [same]) (by simp [same]) kept.1.outboxRoom fun full => ?_
  simp [admissionPass, State.outboxReady, full] at h

theorem startTxB_drawn {s t : State} (h : startTxB s = some t) : Drawn s t := by
  have kept := startTxB_kept h
  unfold startTxB at h
  repeat' split at h
  all_goals cases h
  all_goals exact .ofSame kept.2 rfl rfl (fun _ => id) kept.1.outboxRoom fun _ => .ofSame rfl rfl rfl

theorem startTxA_drawn {s t : State} (h : startTxA s = some t) : Drawn s t := by
  have kept := startTxA_kept h
  unfold startTxA at h
  repeat' split at h
  all_goals cases h
  exact .ofSame kept.2 rfl rfl (fun _ => id) kept.1.outboxRoom fun _ => .ofSame rfl rfl rfl

theorem react_drawn {s t : State} (q : s.frontStill) (h : react s = some t) : Drawn s t := by
  rcases react_cases h with h | h | h | h | h | h | h | h | h | h | h
  · exact restartEvaluation_drawn h
  · exact makePass_drawn h
  · exact .ofAction (chooseVerify_of_still q ▸ h) (.inl rfl)
  · exact completeSafe_drawn h
  · exact endHold_drawn h
  · exact offerAnswer_drawn h
  · exact offerReport_drawn h
  · exact dealAtChainEnd_drawn (examineHead_still q h)
  · exact admissionPass_drawn h
  · exact startTxB_drawn h
  · exact startTxA_drawn h

/-! ## All of them -/

/-- Only the completion of a safe drive changes the mode (R121). -/
theorem KeptMatrix.mode_eq {s t : State} (k : KeptMatrix s t) {m : Mode} (mode : s.mdc.mode = m) (other : m ≠ .safe .driving) :
    t.mdc.mode = m :=
  (k.mode.resolve_right fun driven => other (mode.symm.trans driven.1)).trans mode

/-- Consequences one after another. -/
abbrev Runs : State → State → Prop := Relation.ReflTransGen Drawn

theorem Runs.matrix {s u : State} (h : Runs s u) : KeptMatrix s u := by
  induction h with
  | refl => exact .refl s
  | tail _ last ih => exact ih.trans last.matrix

theorem settle_runs (n : Nat) {s : State} (q : s.frontStill) : Runs s (settle n s) :=
  (settle_keeps (P := State.frontStill) (R := Runs) (fun _ => .refl) (fun _ _ _ => Relation.ReflTransGen.trans)
    (fun _ _ p h => ⟨(react_kept p h).still p, .single (react_drawn p h)⟩) n s q).2

/-- The agent does not go into service again (R151). -/
theorem Runs.notServing {s u : State} (h : Runs s u) (done : ∀ r, s.mga ≠ .serving r) : ∀ r, u.mga ≠ .serving r := by
  induction h with
  | refl => exact done
  | tail _ last ih => exact fun r serving => ih r (last.agent r serving)

/-- In CONFIG the idle-lead timer and its mark stand (R99). -/
theorem Runs.resting {s u : State} (h : Runs s u) (config : s.mdc.mode = .config) :
    u.vfu.idleLead = s.vfu.idleLead ∧ u.vfu.idleMark = s.vfu.idleMark := by
  induction h with
  | refl => exact ⟨rfl, rfl⟩
  | tail first last ih =>
    obtain ⟨lead, mark⟩ := last.resting ((Runs.matrix first).mode_eq config nofun)
    exact ⟨lead.trans ih.1, mark.trans ih.2⟩

theorem Runs.alert {s u : State} (h : Runs s u) (full : s.outboxRoom = false) : u.outboxRoom = false ∧ AlertFollows s u := by
  induction h with
  | refl => exact ⟨full, .ofSame rfl rfl rfl⟩
  | tail _ last ih => exact ⟨last.room ih.1, ih.2.trans (last.alert ih.1)⟩

/-! ## The Verify Unit is asked before the event is complete -/

/-- What an event may still have to do before it comes to other blocks than the Route Evaluator, the Coil Scheduler and the Verify Unit:
a restart of the evaluation, a launch pass, which may ask for another restart, and the Verify Unit's way to a verify. -/
def State.early (s : State) : Nat :=
  (if (restartEvaluation s).isSome then 1 else 0) + (if s.csd.passDue then 2 else 0) + s.vfu.activity.stage

theorem State.early_le (s : State) : s.early ≤ 5 := by
  have : s.vfu.activity.stage ≤ 2 := by cases s.vfu.activity <;> simp [Activity.stage]
  unfold State.early
  split <;> split <;> omega

/-- The first three kinds of consequences. -/
def Early (s t : State) : Prop :=
  restartEvaluation s = some t ∨ makePass s = some t ∨ ∃ v, verifyAction s = some v ∧ (t = v ∨ t = v.chose)

theorem restart_isSome_congr {s t : State} (rev : t.rev.evaluation = s.rev.evaluation) (tbs : t.tbs = s.tbs)
    (csd : t.csd = s.csd) : (restartEvaluation t).isSome = (restartEvaluation s).isSome := by
  have same : restartEvaluation t = none ↔ restartEvaluation s = none := by
    rw [restartEvaluation_eq_none_iff, restartEvaluation_eq_none_iff, rev, tbs, csd]
  rw [Bool.eq_iff_iff, Option.isSome_iff_ne_none, Option.isSome_iff_ne_none]
  exact not_congr same

theorem early_of_action {s t v : State} (action : verifyAction s = some v) (h : t = v ∨ t = v.chose) : t.early < s.early := by
  obtain ⟨⟨a, rfl⟩, nearer⟩ := verifyAction_advances action
  have restarts : (restartEvaluation { s with vfu.activity := a }).isSome = (restartEvaluation s).isSome :=
    restart_isSome_congr rfl rfl rfl
  have restarts' : (restartEvaluation { s with vfu.activity := a }.chose).isSome = (restartEvaluation s).isSome :=
    restart_isSome_congr rfl rfl rfl
  unfold State.early
  obtain rfl | rfl := h
  · rw [restarts]
    exact Nat.add_lt_add_left nearer _
  · rw [restarts']
    exact Nat.add_lt_add_left nearer _

theorem early_of_pass {s t : State} (due : s.csd.passDue = true) (made : PassMade s t) : t.early < s.early := by
  unfold State.early
  rw [made.done, made.unit, due]
  simp only [Bool.false_eq_true, if_false, if_true]
  split <;> split <;> omega

theorem restartEvaluation_eq {s t : State} (h : restartEvaluation s = some t) : t = startEvaluation s := by
  unfold restartEvaluation at h
  split at h
  · cases h
  · split at h <;> cases h
    rfl

/-- Each of the first three brings the event nearer to the others, and leaves the mode, the agent and the engine's state alone. -/
theorem Early.nearer {s t : State} (h : Early s t) : t.early < s.early ∧ t.mdc = s.mdc ∧ t.mga = s.mga ∧
    t.ste.st = s.ste.st ∧ t.rtq.responseHeld = s.rtq.responseHeld := by
  obtain h | h | ⟨v, action, h⟩ := h
  · have same := restartEvaluation_frame s h
    refine ⟨?_, by simp [same], by simp [same], by simp [same], by simp [same]⟩
    have again : restartEvaluation t = none := restartEvaluation_eq h ▸ startEvaluation_fresh s
    simp [State.early, again, h, same]
  · obtain ⟨due, rfl | rfl | ⟨v, action, rfl⟩⟩ := makePass_cases h
    · have made := launchPass_made s
      exact ⟨early_of_pass due made, made.control, made.agent, made.engine, made.held⟩
    · have made := launchPass_made s.chose
      have same : s.chose.early = s.early := by
        have restarts : (restartEvaluation s.chose).isSome = (restartEvaluation s).isSome := restart_isSome_congr rfl rfl rfl
        unfold State.early
        rw [restarts]
        rfl
      exact ⟨same ▸ early_of_pass due made, made.control, made.agent, made.engine, made.held⟩
    · have nearer := early_of_action action (.inr rfl)
      obtain ⟨⟨a, rfl⟩, -⟩ := verifyAction_advances action
      exact ⟨nearer, rfl, rfl, rfl, rfl⟩
  · have nearer := early_of_action action h
    obtain ⟨⟨a, rfl⟩, -⟩ := verifyAction_advances action
    obtain rfl | rfl := h <;> exact ⟨nearer, rfl, rfl, rfl, rfl⟩

/-- The first three kinds come before all others; where no frame is examined, they are what happens first. -/
theorem react_early {s : State} (q : s.frontStill) (due : verifyAction s ≠ none ∨ s.csd.passDue = true) :
    ∃ t, react s = some t ∧ Early s t := by
  cases restarts : restartEvaluation s with
  | some t => exact ⟨t, by simp [react, restarts], .inl restarts⟩
  | none =>
    cases pass : makePass s with
    | some t => exact ⟨t, by simp [react, restarts, pass], .inr (.inl pass)⟩
    | none =>
      have undue := passDue_of_complete pass
      obtain ⟨v, action⟩ := Option.ne_none_iff_exists'.mp (due.resolve_right (by simp [undue]))
      exact ⟨v, by simp [react, restarts, pass, chooseVerify_of_still q, action], .inr (.inr ⟨v, action, .inl rfl⟩)⟩

/-- Consequences one after another, in the course of which the Verify Unit has nothing more to do at some point. -/
def Settles (s u : State) : Prop := ∃ x, Runs s x ∧ verifyAction x = none ∧ Runs x u

theorem Settles.runs {s u : State} (h : Settles s u) : Runs s u :=
  let ⟨_, before, _, after⟩ := h
  before.trans after

theorem settle_settles (n : Nat) {s : State} (q : s.frontStill) (fuel : s.early ≤ n) : Settles s (settle n s) := by
  induction n generalizing s with
  | zero =>
    have stage : s.vfu.activity.stage = 0 := by unfold State.early at fuel; omega
    refine ⟨s, .refl, verifyAction_eq_none_iff.mpr ⟨fun free => ?_, fun b k claimed => ?_⟩, .refl⟩
    · simp [free, Activity.stage] at stage
    · simp [claimed, Activity.stage] at stage
  | succ n ih =>
    by_cases idle : verifyAction s = none
    · exact ⟨s, .refl, idle, settle_runs _ q⟩
    · obtain ⟨t, reacts, early⟩ := react_early q (.inl idle)
      obtain ⟨x, before, asked, after⟩ := ih ((react_kept q reacts).still q) (by have := early.nearer.1; omega)
      rw [settle, reacts]
      exact ⟨x, .head (react_drawn q reacts) before, asked, after⟩

/-- The consequences of an event, drawn from the state `x` that its own effect left, or from that state with the released head dealt with
at the chain end. -/
def Draws (x u : State) : Prop := ∃ e n, 5 ≤ n ∧ (e = x ∨ dealAtChainEnd x = some e) ∧ u = settle n e

theorem settled_draws (x : State) : Draws x (settled x) := ⟨x, _, by decide, .inl rfl, rfl⟩

section
variable {x u : State} (h : Draws x u) (q : x.frontStill)
include h q

theorem Draws.kept : Kept x u := by
  obtain ⟨e, n, -, rfl | dealt, rfl⟩ := h
  · exact settle_kept n e q
  · have kept := dealAtChainEnd_kept dealt
    exact kept.trans (settle_kept n e (kept.still q))

theorem Draws.settles : Settles x u := by
  obtain ⟨e, n, fuel, rfl | dealt, rfl⟩ := h
  · exact settle_settles n q (e.early_le.trans fuel)
  · obtain ⟨y, before, asked, after⟩ := settle_settles n ((dealAtChainEnd_kept dealt).still q) (e.early_le.trans fuel)
    exact ⟨y, .head (dealAtChainEnd_drawn dealt) before, asked, after⟩

theorem Draws.still (c : x.calm) : Still x u := by
  obtain ⟨e, n, -, rfl | dealt, rfl⟩ := h
  · exact settle_still n e q c
  · have stood := dealAtChainEnd_still dealt
    exact stood.trans (settle_still n e ((dealAtChainEnd_kept dealt).still q) (stood.calm c))

end

/-! ## What becomes of claims (R92, R100) -/

theorem verifyAction_choice {s v : State} (action : verifyAction s = some v) {b : Bank} {k : VerifyKind} {due : Nat}
    (taken : v.vfu.activity = .claimed b k ∨ v.vfu.activity = .verifying b k due) :
    s.vfu.activity = .claimed b k ∨ (s.vfu.activity = .free ∧ verifyChoice s = some (k, b)) := by
  unfold verifyAction at action
  split at action
  · next free =>
    obtain ⟨⟨k', b'⟩, chosen, rfl⟩ := Option.map_eq_some_iff.mp action
    refine .inr ⟨free, ?_⟩
    unfold takeBank startVerify at taken
    split at taken <;> simp_all
  · next b' k' claimed =>
    split at action <;> cases action
    simp_all [startVerify]
  · cases action

section
variable {s u : State}

/-- A verify in progress goes on. -/
theorem Runs.verifying (h : Runs s u) {b : Bank} {k : VerifyKind} {due : Nat} (verifying : s.vfu.activity = .verifying b k due) :
    u.vfu.activity = .verifying b k due := h.matrix.verifying b k due verifying

/-- Where a kind of verify is never chosen, none begins. -/
theorem Runs.never (h : Runs s u) {k : VerifyKind} (unchosen : ∀ x, KeptMatrix s x → ∀ b, verifyChoice x ≠ some (k, b))
    (none_yet : ∀ b, s.vfu.activity ≠ .claimed b k ∧ ∀ due, s.vfu.activity ≠ .verifying b k due) :
    ∀ b, u.vfu.activity ≠ .claimed b k ∧ ∀ due, u.vfu.activity ≠ .verifying b k due := by
  induction h with
  | refl => exact none_yet
  | @tail x y first last ih =>
    obtain same | ⟨v, action, same⟩ := last.activity
    · rwa [same]
    · have no : ∀ b due, ¬(v.vfu.activity = .claimed b k ∨ v.vfu.activity = .verifying b k due) := fun b due taken =>
        (verifyAction_choice action taken).elim (ih b).1 fun chosen => unchosen x (Runs.matrix first) b chosen.2
      rw [same]
      exact fun b => ⟨fun claimed => no b 0 (.inl claimed), fun due verifying => no b due (.inr verifying)⟩

/-- A FREE unit that is asked for nothing stays FREE. -/
theorem Runs.free (h : Runs s u) (free : s.vfu.activity = .free) (unasked : ∀ x, KeptMatrix s x → verifyChoice x = none) :
    u.vfu.activity = .free := by
  induction h with
  | refl => exact free
  | tail first last ih =>
    obtain same | ⟨v, action, -⟩ := last.activity
    · exact same.trans ih
    · rw [verifyAction_waits ih (unasked _ (Runs.matrix first))] at action
      cases action

/-- A claim stays, or its bank is verified once it is idle. -/
theorem Runs.claimed (h : Runs s u) {b : Bank} {k : VerifyKind} (claimed : s.vfu.activity = .claimed b k) :
    (u.vfu.activity = .claimed b k ∧ u.csd.bankIdle b u.now = s.csd.bankIdle b s.now) ∨
      (u.vfu.activity = .verifying b k (s.now + Config.verifyTime) ∧ s.csd.bankIdle b s.now = true) := by
  induction h with
  | refl => exact .inl ⟨claimed, rfl⟩
  | @tail x y first last ih =>
    obtain ⟨stays, idle⟩ | ⟨verifies, idle⟩ := ih
    · have ready := last.claims b k stays
      obtain same | ⟨v, action, same⟩ := last.activity
      · exact .inl ⟨same.trans stays, ready.trans idle⟩
      · rw [verifyAction_claimed stays] at action
        split at action <;> cases action
        next now_idle =>
          refine .inr ⟨?_, idle ▸ now_idle⟩
          rw [same, startVerify, (Runs.matrix first).clock]
    · exact .inr ⟨last.matrix.verifying _ _ _ verifies, idle⟩

/-- A claim on an idle bank is a verify by the time the event is complete (R92). -/
theorem Settles.claimed (h : Settles s u) {b : Bank} {k : VerifyKind} (claimed : s.vfu.activity = .claimed b k) :
    u.vfu.activity =
      if s.csd.bankIdle b s.now = true then .verifying b k (s.now + Config.verifyTime) else .claimed b k := by
  obtain ⟨x, before, asked, after⟩ := h
  obtain ⟨stays, idle⟩ | ⟨verifies, idle⟩ := before.claimed claimed
  · have busy := (verifyAction_eq_none_iff.mp asked).2 b k stays
    rw [idle] at busy
    rw [if_neg (by simp [busy])]
    obtain ⟨stays', -⟩ | ⟨-, ready⟩ := Runs.claimed (before.trans after) claimed
    · exact stays'
    · rw [busy] at ready
      cases ready
  · rw [if_pos idle]
    exact after.verifying verifies

/-- What the unit comes to that takes a bank for a command at this instant. -/
def Taking (s : State) (b : Bank) (a : Activity) : Prop :=
  a = .claimed b .command ∨ a = .verifying b .command (s.now + Config.verifyTime)

theorem Runs.takes (h : Runs s u) {b : Bank} (taking : Taking s b s.vfu.activity) : Taking s b u.vfu.activity := by
  obtain claimed | verifying := taking
  · obtain ⟨stays, -⟩ | ⟨verifies, -⟩ := h.claimed claimed
    exacts [.inl stays, .inr verifies]
  · exact .inr (h.verifying verifying)

/-- A FREE unit with a command in hand takes its next bank before the event is complete (R100). -/
theorem Settles.takes (h : Settles s u) (free : s.vfu.activity = .free) {i : InHand} (hand : s.vfu.inHand = some i) :
    Taking s i.nextBank u.vfu.activity := by
  obtain ⟨x, before, asked, after⟩ := h
  have reached : ∀ {y}, Runs s y → y.vfu.activity = .free ∨ Taking s i.nextBank y.vfu.activity := by
    intro y h
    induction h with
    | refl => exact .inl free
    | @tail x y first last ih =>
      have clock := (Runs.matrix first).clock
      obtain ih | ih := ih
      · obtain same | ⟨v, action, same⟩ := last.activity
        · exact .inl (same.trans ih)
        · have chosen := verifyChoice_command ((Runs.matrix first).demands.2.trans hand)
          rw [verifyAction_of_free ih, chosen] at action
          cases action
          have taken : y.vfu.activity = (takeBank .command i.nextBank x).vfu.activity := same
          rw [taken]
          unfold takeBank
          split
          · exact .inr (.inr (by rw [startVerify, clock]))
          · exact .inr (.inl rfl)
      · have taking : Taking x i.nextBank x.vfu.activity := by unfold Taking; rwa [clock]
        have later := Runs.takes (.single last) taking
        unfold Taking at later
        rw [clock] at later
        exact .inr later
  obtain free' | taking := reached before
  · have none_chosen := (verifyAction_eq_none_iff.mp asked).1 free'
    rw [verifyChoice_command (before.matrix.demands.2.trans hand)] at none_chosen
    cases none_chosen
  · have clock := before.matrix.clock
    have taking' : Taking x i.nextBank x.vfu.activity := by unfold Taking; rwa [clock]
    have later := after.takes taking'
    unfold Taking at later
    rwa [clock] at later

end

/-! ## A claim that has been released (R102, R103, R118) -/

/-- In CONFIG, and in SAFE with nothing owed and no idle mark, a unit with nothing in hand and nothing requested chooses nothing. -/
theorem verifyChoice_unasked {s x : State} (k : KeptMatrix s x) (hand : s.vfu.inHand = none) (requests : s.vfu.requests = [])
    (rests : s.mdc.mode = .config ∨
      (s.mdc.mode.isSafe = true ∧ s.vfu.debt ≤ 0 ∧ s.vfu.idleMark = false ∧ s.tbs.runtime.idleLead ≠ 0)) :
    verifyChoice x = none := by
  have hand' := k.demands.2.trans hand
  have requests' := k.demands.1.trans requests
  obtain config | ⟨safe, paid, mark, lead⟩ := rests
  · refine verifyChoice_resting hand' requests' ?_
    simp [k.mode_eq config nofun, Mode.isSafe]
  · have safe' : x.mdc.mode.isSafe = true := by
      obtain mode | mode := k.mode
      · rwa [mode]
      · rw [mode.2]; rfl
    have debt := k.debt.1
    have unmarked : x.vfu.idleMark = false := by
      by_cases stands : s.ste.st ≠ .reportWait ∨ x.ste.st = .reportWait
      · exact (k.step stands).idleTimer.2.trans mark
      · push Not at stands
        have idle := (k.engine.resolve_left fun same => stands.2 (same.trans stands.1)).2
        have lead' : x.tbs.runtime.idleLead ≠ 0 := by rw [k.tables]; exact lead
        exact ((k.placed stands.1 idle).1.timed (isRunOrSafe_iff.mpr (.inr safe')) lead').2
    refine verifyChoice_none hand' requests' (.inr safe') (by omega) (.inl ⟨fun owed => ?_, fun offered => ?_⟩)
    · have := (ordinaryAllowed_iff.mp owed).1
      omega
    · have := (pullInAllowed_iff.mp offered).2.2
      simp [unmarked] at this

/-- A claim released before the consequences are drawn, of a kind that is not chosen again. -/
theorem ClaimReleased.ofRuns {k : VerifyKind} {e s u : State} (h : Runs s u) (free : s.vfu.activity = .free)
    (unchosen : ∀ x, KeptMatrix s x → ∀ b, verifyChoice x ≠ some (k, b)) (debt : s.vfu.debt = e.vfu.debt)
    (rests : s.mdc.mode = .config ∨ (s.mdc.mode.isSafe = true ∧
      (e.vfu.idleMark = false → e.tbs.runtime.idleLead ≠ 0 → s.vfu.idleMark = false ∧ s.tbs.runtime.idleLead ≠ 0))) :
    ClaimReleased k e u where
  gone := h.never unchosen fun b => by simp [free]
  free hand requests unowed := by
    have hand' := h.matrix.demands.2.symm.trans hand
    have requests' := h.matrix.demands.1.symm.trans requests
    refine h.free free fun x kept => verifyChoice_unasked kept hand' requests' ?_
    obtain config | ⟨safe, marks⟩ := rests
    · exact .inl config
    · obtain config | ⟨paid, mark, lead⟩ := unowed
      · obtain mode | driven := h.matrix.mode
        · rw [← mode, config] at safe
          cases safe
        · rw [config] at driven
          cases driven.2
      · obtain ⟨mark', lead'⟩ := marks mark lead
        exact .inr ⟨safe, debt ▸ paid, mark', lead'⟩

/-- The recovery's verifies are chosen for its requests alone. -/
theorem recovery_unchosen {s : State} (requests : s.vfu.requests = []) {x : State} (k : KeptMatrix s x) (b : Bank) :
    verifyChoice x ≠ some (.recovery, b) := by
  have none_ := k.demands.1.trans requests
  cases hand : x.vfu.inHand with
  | some i => simp [verifyChoice_command hand]
  | none =>
    rw [verifyChoice_timed hand none_]
    repeat' split
    all_goals simp

/-- A command's verifies are chosen for what the unit has in hand alone. -/
theorem command_unchosen {s : State} (hand : s.vfu.inHand = none) {x : State} (k : KeptMatrix s x) (b : Bank) :
    verifyChoice x ≠ some (.command, b) := by
  have none_ := k.demands.2.trans hand
  cases requests : x.vfu.requests with
  | cons c l => simp [verifyChoice_recovery none_ requests]
  | nil =>
    rw [verifyChoice_timed none_ requests]
    repeat' split
    all_goals simp

/-- In CONFIG no debt forces a verify. -/
theorem debtForced_unchosen {s : State} (config : s.mdc.mode = .config) {x : State} (k : KeptMatrix s x) (b : Bank) :
    verifyChoice x ≠ some (.debtForced, b) := by
  have mode := k.mode_eq config nofun
  cases hand : x.vfu.inHand with
  | some i => simp [verifyChoice_command hand]
  | none =>
    cases requests : x.vfu.requests with
    | cons c l => simp [verifyChoice_recovery hand requests]
    | nil => simp [verifyChoice_resting hand requests (by simp [mode, Mode.isSafe])]

end Sys2Proof.Machine
end

section
/-! SUPPORT. The operations of the Verify Unit's requesters and of the Mode Controller's changes of mode (R102, R103, R106, R114), each
said once, and the state in which a management request is served. -/

namespace Sys2Proof.Machine

/-! ## Claims and verifies of a withdrawn request (R93, R102, R103) -/

/-- What the unit is at once a claim of a kind has been released. -/
def Activity.withoutClaim (k : VerifyKind) (a : Activity) : Activity :=
  match a with
  | .claimed b x => if x = k then .free else .claimed b x
  | .free => .free
  | .verifying b x due => .verifying b x due

/-- What the unit is at once the request of a verify in progress has been withdrawn. -/
def Activity.withoutVerify (k : VerifyKind) (a : Activity) : Activity :=
  match a with
  | .verifying b x due => if x = k then .verifying b .withdrawn due else .verifying b x due
  | .free => .free
  | .claimed b x => .claimed b x

theorem releaseClaim_eq (k : VerifyKind) (s : State) : ∃ p, releaseClaim k s =
    { s with vfu.activity := s.vfu.activity.withoutClaim k, csd.passDue := p } := by
  unfold releaseClaim
  split
  · next b x claimed =>
    split
    · next same => exact ⟨true, by simp [claimed, same, Activity.withoutClaim]⟩
    · next other => exact ⟨s.csd.passDue, by rw [claimed, Activity.withoutClaim, if_neg other, ← claimed]⟩
  · next unclaimed =>
    refine ⟨s.csd.passDue, ?_⟩
    cases activity : s.vfu.activity with
    | claimed b x => exact absurd activity (unclaimed b x)
    | free => rw [Activity.withoutClaim, ← activity]
    | verifying b x due => rw [Activity.withoutClaim, ← activity]

theorem orphanVerify_eq (k : VerifyKind) (s : State) :
    orphanVerify k s = { s with vfu.activity := s.vfu.activity.withoutVerify k } := by
  unfold orphanVerify
  split
  · next b x due verifying =>
    split
    · next same => simp [verifying, same, Activity.withoutVerify]
    · next other => rw [verifying, Activity.withoutVerify, if_neg other, ← verifying]
  · next unasked =>
    cases activity : s.vfu.activity with
    | verifying b x due => exact absurd activity (unasked b x due)
    | free => rw [Activity.withoutVerify, ← activity]
    | claimed b x => rw [Activity.withoutVerify, ← activity]

@[simp] theorem withoutClaim_claimed (b : Bank) (k : VerifyKind) : (Activity.claimed b k).withoutClaim k = .free := if_pos rfl

@[simp] theorem withoutClaim_free (k : VerifyKind) : Activity.free.withoutClaim k = .free := rfl

@[simp] theorem withoutClaim_verifying (k x : VerifyKind) (b : Bank) (due : Nat) :
    (Activity.verifying b x due).withoutClaim k = .verifying b x due := rfl

theorem withoutClaim_other {b : Bank} {k x : VerifyKind} (other : x ≠ k) :
    (Activity.claimed b x).withoutClaim k = .claimed b x := if_neg other

@[simp] theorem withoutVerify_free (k : VerifyKind) : Activity.free.withoutVerify k = .free := rfl

@[simp] theorem withoutVerify_claimed (k x : VerifyKind) (b : Bank) :
    (Activity.claimed b x).withoutVerify k = .claimed b x := rfl

theorem withoutVerify_verifying (k x : VerifyKind) (b : Bank) (due : Nat) :
    ∃ y, (Activity.verifying b x due).withoutVerify k = .verifying b y due := by
  unfold Activity.withoutVerify
  split
  · next same =>
    cases same
    split
    exacts [⟨_, rfl⟩, ⟨_, rfl⟩]
  · next same => cases same
  · next same => cases same

/-! ## The entry of ENTRY (R106, R114) -/

theorem enterEntry_eq (o : EntryOrigin) (r : EntryRequest) (s : State) : ∃ p alert, enterEntry o r s =
    { s with
      rtq.alert := alert
      csd.passDue := p
      mdc.mode := .entry o r
      mdc.outstanding := Targets.none
      mdc.redrive := false
      vfu.slot := none
      vfu.idleLead := none
      vfu.idleMark := false
      vfu.inHand := some (.entry 0)
      vfu.activity := s.vfu.activity.withoutClaim .debtForced } := by
  obtain ⟨p, released⟩ := releaseClaim_eq .debtForced
    (stopVerifyTimers (setMode (.entry o r) { s with mdc.outstanding := Targets.none, mdc.redrive := false }))
  exact ⟨p, _, congrArg (fun t : State => { t with vfu.inHand := some (.entry 0) }) released⟩

/-- What ENTRY finds when the consequences of its begin have been drawn. -/
structure EntryBegun (o : EntryOrigin) (r : EntryRequest) (s u : State) : Prop where
  mode : u.mdc.mode = .entry o r
  validating : u.mdc.validating = s.mdc.validating
  inHand : u.vfu.inHand = some (.entry 0)
  slot : u.vfu.slot = none
  debt : u.vfu.debt = s.vfu.debt ∧ u.vfu.round = s.vfu.round
  recorded : u.csd.recorded = s.csd.recorded
  paths : u.tbs.paths = s.tbs.paths
  taken : s.vfu.activity = .free ∨ (∃ b, s.vfu.activity = .claimed b .debtForced) →
    u.vfu.activity = .claimed 0 .command ∨ u.vfu.activity = .verifying 0 .command (s.now + Config.verifyTime)
  verifying : ∀ b k due, s.vfu.activity = .verifying b k due → u.vfu.activity = .verifying b k due
  idleTimer : s.ste.st ≠ .reportWait → u.vfu.idleLead = none ∧ u.vfu.idleMark = false

theorem EntryBegun.ofSettles {o : EntryOrigin} {r : EntryRequest} {s u : State} (h : Settles (enterEntry o r s) u) :
    EntryBegun o r s u := by
  obtain ⟨p, alert, begun⟩ := enterEntry_eq o r s
  rw [begun] at h
  have matrix := h.runs.matrix
  exact
    { mode := matrix.mode_eq rfl nofun
      validating := matrix.requests.2
      inHand := matrix.demands.2
      slot := matrix.slot
      debt := matrix.debt
      recorded := matrix.positions
      paths := by rw [matrix.tables]
      taken := fun free => by
        refine h.takes (i := .entry 0) ?_ rfl
        obtain free | ⟨b, claimed⟩ := free
        · exact congrArg (Activity.withoutClaim .debtForced) free
        · exact (congrArg (Activity.withoutClaim .debtForced) claimed).trans (withoutClaim_claimed b _)
      verifying := fun b k due verifying =>
        matrix.verifying b k due (congrArg (Activity.withoutClaim .debtForced) verifying)
      idleTimer := fun placed => (matrix.step (.inl placed)).idleTimer }

end Sys2Proof.Machine
end

section
/-! PROOF. The outcome of a validation (R113, R114; O38). -/

namespace Sys2Proof.Machine

theorem validationEffect_eq {s : State} {since : Nat} (due : s.mdc.validating = some since) (time : Nat) :
    validationEffect time s = match validate s.tbs with
      | some (c, n) => answer (.nak (.validation c n)) { s.advance time with mdc.validating := none }
      | none => enterEntry .config .enterRun { s.advance time with mdc.validating := none } := by
  unfold validationEffect
  rw [due]
  rfl

section
variable {s : State} {time since : Nat} {r : Request} (firm : s.headFirm) (due : s.mdc.validating = some since)
  (serving : s.mga = .serving r) (unheld : s.rtq.responseHeld = false)
include firm due serving unheld

/-- Tables that fail a check: the refusal, and nothing else. -/
theorem validationRefused {c n : Nat} (failed : validate s.tbs = some (c, n)) :
    let e := { s.advance time with mdc.validating := none }
    let u := settled (validationEffect time s)
    u.answered (answerFrame s.lnk r (.nak (.validation c n))) ∧ KeptMatrix e u ∧ (s.calm → Still e u) := by
  intro e u
  have effect : validationEffect time s = answer (.nak (.validation c n)) e := by
    rw [validationEffect_eq due, failed]
  have still : (answer (.nak (.validation c n)) e).frontStill := (headFirm_of_same (by simp [e]) (by simp [e]) firm).still
  have offered := (answer_offered (s := e) (.nak (.validation c n)) serving).1.answered
  have matrix : KeptMatrix e (answer (.nak (.validation c n)) e) := .ofSame (by simp) (by simp) (by simp) (by simp) (by simp)
    (by simp) (by simp) (by simp) (by simp)
  obtain ⟨chain, after⟩ := settled_kept _ still
  change (settled (validationEffect time s)).answered _ ∧ KeptMatrix e (settled (validationEffect time s)) ∧
    (s.calm → Still e (settled (validationEffect time s)))
  rw [effect]
  refine ⟨chain.answers ((answer_held _ e).trans unheld) _ offered, matrix.trans after, fun calm => ?_⟩
  have calm' : (answer (.nak (.validation c n)) e).calm := by
    simp only [State.calm, safeComplete, answer_frame]
    exact calm
  obtain ⟨marks, coil, tables, events, control⟩ := settled_still _ still calm'
  simp only [answer_frame] at marks coil tables events control
  exact ⟨marks, coil, tables, events, control⟩

/-- Tables that meet every check: ENTRY, its request still in service. -/
theorem validationPassed (passed : validate s.tbs = none) :
    let u := settled (validationEffect time s)
    u.mga = .serving r ∧ EntryBegun .config .enterRun { s.advance time with mdc.validating := none } u := by
  intro u
  have effect : validationEffect time s = enterEntry .config .enterRun { s.advance time with mdc.validating := none } := by
    rw [validationEffect_eq due, passed]
  have still : (enterEntry .config .enterRun { s.advance time with mdc.validating := none }).frontStill :=
    (headFirm_of_same (by simp) (by simp) firm).still
  have begun := EntryBegun.ofSettles ((settled_draws _).settles still)
  obtain ⟨chain, -⟩ := settled_kept _ still
  obtain ⟨p, alert, entered⟩ := enterEntry_eq .config .enterRun { s.advance time with mdc.validating := none }
  rw [← effect] at begun chain
  refine ⟨chain.agentServing ?_ r ?_, begun⟩ <;> rw [effect, entered]
  exacts [unheld, serving]

end

/-- Settles O38: a refusal leaves all but the agent, and a validation that passes leads to ENTRY. -/
theorem validationDecidesEntry : Obligations.ValidationDecidesEntry := by
  intro time since r s running firm due serving unheld mode
  refine ⟨_, congrArg Host.Outcome.next (event_running (validationEffect time) running), ?_⟩
  cases verdict : validate s.tbs with
  | some failed =>
    obtain ⟨c, n⟩ := failed
    obtain ⟨answered, matrix, still⟩ := validationRefused (time := time) firm due serving unheld verdict
    have config := matrix.mode_eq mode nofun
    refine ⟨matrix.requests.2, by rw [matrix.tables]; rfl, fun _ _ same => ?_, nofun⟩
    cases same
    exact ⟨config, answered, matrix, still⟩
  | none =>
    obtain ⟨owed, begun⟩ := validationPassed (time := time) firm due serving unheld verdict
    exact ⟨begun.validating, begun.paths, nofun, fun _ =>
      ⟨begun.mode, begun.inHand, begun.slot, owed, begun.taken, begun.idleTimer⟩⟩

end Sys2Proof.Machine
end

section
/-! SUPPORT. A request that reaches the agent, whatever its service does (R139, R140, R151): the state in which it is served, and what it
leaves on the chain side. -/

namespace Sys2Proof.Machine

/-- The state in which the agent serves a request: the instant is the request's, the request is in service, and its frame is gone from the
Forward Queue but for the copy of a broadcast that goes on. -/
def Attended (s : State) (h : ReqHead) (payload : List Byte) (z : State) : Prop :=
  ∃ m w l q, z = (s.serving h payload).requeued m w l q ∧
    q = if h.dest = broadcast then [{ frame := requestFrame s.lnk h payload, status := .released, own := false }] else []

theorem request_drawn {s : State} {h : ReqHead} (r : Reaches s h) {payload : List Byte} {d : Decoded}
    (decoded : decodeRequest payload = .ok d) (other : ∀ arg, d ≠ .command .softReset arg) :
    ∃ z, Attended s h payload z ∧ Draws (serve d z) (event (requestArrives h payload) s) := by
  obtain ⟨m, w, l, q, -, queue, e, dealt, settles⟩ := request_served r payload decoded fun _ => other
  exact ⟨_, ⟨m, w, l, q, rfl, queue⟩, e, 4095, by decide, dealt, settles⟩

/-- The chain side, but for the agent and the ALERT and RESPONSE outboxes. -/
structure ChainStands (s t : State) : Prop where
  pending : t.pending = s.pending
  now : t.now = s.now
  lnk : t.lnk = s.lnk
  fwq : t.fwq = s.fwq
  queue : t.rtq.queue = s.rtq.queue
  report : t.rtq.report = s.rtq.report ∧ t.ste.report = s.ste.report
  echo : t.rtq.echo = s.rtq.echo

section
variable {s z x : State} {h : ReqHead} {payload : List Byte} (attended : Attended s h payload z)
include attended

theorem Attended.released {y : FwdEntry} (mem : y ∈ z.fwq.queue) : y.status = .released := by
  obtain ⟨m, w, l, q, rfl, queue⟩ := attended
  change y ∈ q at mem
  rw [queue] at mem
  split at mem
  · rw [List.mem_singleton.mp mem]
  · cases mem

theorem Attended.still (queue : x.fwq.queue = z.fwq.queue) : x.frontStill := by
  refine .inl fun y mem => ?_
  rw [queue] at mem
  simp [attended.released mem]

/-- What a request leaves on the chain side whose service leaves it as it is. -/
theorem Attended.served {u : State} (chain : KeptChain x u) (same : ChainStands z x) : Served s h payload u := by
  obtain ⟨m, w, l, q, rfl, queue⟩ := attended
  have lnk := same.lnk
  have quiet : x.fwq.queue = q := by rw [same.fwq]; rfl
  exact
    { pending := chain.pending.trans same.pending
      now := chain.now.trans same.now
      straps := by rw [chain.straps.1, chain.straps.2.1, chain.straps.2.2, lnk]; exact ⟨rfl, rfl, rfl⟩
      links := by rw [chain.links.1, chain.links.2, lnk]; exact ⟨rfl, rfl⟩
      marks := by rw [chain.marks.1, chain.marks.2, lnk]; exact ⟨rfl, rfl⟩
      sending := ⟨fun y sent => chain.sending.1 y (by rw [lnk]; exact sent), fun y sent =>
        chain.sending.2 y (by rw [lnk]; exact sent)⟩
      slot := by rw [chain.slot, same.fwq]; rfl
      own := fun notAll => by
        have empty : x.fwq.queue = [] := quiet.trans (queue.trans (if_neg notAll))
        exact List.suffix_nil.mp (empty ▸ chain.forward)
      copy := fun toAll up => by
        have up' : x.lnk.b.link = .up := by rw [lnk]; exact up
        exact (chain.forwardKept (.inl up')).1.trans (quiet.trans (queue.trans (if_pos toAll)))
      back := by
        have back := chain.back
        rwa [same.queue] at back
      reports := fun f reported => chain.reports f (by
        unfold State.reported
        rw [same.report.1, same.report.2, same.queue]
        exact reported)
      echoes := fun f echoed => chain.echoes f (by
        unfold State.echoed
        rw [same.echo, same.queue]
        exact echoed) }

end

end Sys2Proof.Machine
end

section
/-! PROOF. ENTER_RUN and RESUME (R109, R123, R151; O40). -/

namespace Sys2Proof.Machine

/-- A condition stands that would cause a trip (R109). -/
def State.standing (s : State) : Prop :=
  (s.csd.supply = .low ∧ s.tbs.runtime.tripMask.getLsbD 6 = true) ∨
    (s.doorIn = true ∧ s.tbs.runtime.tripMask.getLsbD 7 = true)

theorem tripConditionPresent_iff {s : State} : s.tripConditionPresent = true ↔ s.standing := by
  simp [State.tripConditionPresent, State.standing]

theorem serveEnterRun_refused {s : State} (refused : s.mdc.mode ≠ .config ∨ s.standing) :
    serveEnterRun s = answer (.nak .state) s := by
  unfold serveEnterRun
  rw [if_pos]
  simpa [tripConditionPresent_iff] using refused

theorem serveEnterRun_accepted {s : State} (config : s.mdc.mode = .config) (quiet : ¬s.standing) :
    serveEnterRun s = { s with mdc.validating := some s.now } := by
  unfold serveEnterRun
  rw [if_neg]
  simpa [tripConditionPresent_iff, config] using quiet

theorem serveResume_refused {s : State} (refused : s.mdc.mode ≠ .safe .held ∨ s.standing) :
    serveResume s = answer (.nak .state) s := by
  unfold serveResume
  rw [if_pos]
  simpa [tripConditionPresent_iff] using refused

theorem serveResume_accepted {s : State} (held : s.mdc.mode = .safe .held) (quiet : ¬s.standing) :
    serveResume s = enterEntry .safe .resume s := by
  unfold serveResume
  rw [if_neg]
  simpa [tripConditionPresent_iff, held] using quiet

section
variable {h : ReqHead} {s : State} (r : Reaches s h)
include r

theorem enterRun_refused (refused : s.mdc.mode ≠ .config ∨ s.standing) :
    Answered s h (commandPayload .enterRun []) (.nak .state) (event (requestArrives h (commandPayload .enterRun [])) s) :=
  request_answered r (d := .command .enterRun []) rfl (by simp) fun _ _ _ _ => serveEnterRun_refused refused

/-- An accepted ENTER_RUN begins the validation, and nothing else. -/
theorem enterRun_accepted (config : s.mdc.mode = .config) (quiet : ¬s.standing) :
    let pl := commandPayload .enterRun []
    let e := { s.advance h.time with mdc.validating := some (max s.now h.time) }
    let u := event (requestArrives h pl) s
    Served s h pl u ∧ u.owes h pl ∧ KeptMatrix e u ∧ Still e u := by
  intro pl e u
  obtain ⟨z, attended, draws⟩ := request_drawn r (payload := pl) (d := .command .enterRun []) rfl (by simp)
  obtain ⟨m, w, l, q, rfl, -⟩ := id attended
  have effect : serve (.command .enterRun []) ((s.serving h pl).requeued m w l q) =
      { (s.serving h pl).requeued m w l q with mdc.validating := some (max s.now h.time) } :=
    serveEnterRun_accepted config quiet
  rw [effect] at draws
  have calm : (s.advance h.time).calm := calm_of_complete r.complete
  obtain ⟨chain, matrix⟩ := draws.kept (attended.still rfl)
  obtain ⟨marks, coil, tables, events, control⟩ := draws.still (attended.still rfl) calm
  have begun : KeptMatrix e { (s.serving h pl).requeued m w l q with mdc.validating := some (max s.now h.time) } :=
    .ofSame rfl rfl rfl rfl rfl rfl rfl rfl rfl
  exact ⟨attended.served chain ⟨rfl, rfl, rfl, rfl, rfl, ⟨rfl, rfl⟩, rfl⟩, chain.agentServing r.unheld _ rfl,
    begun.trans matrix, marks, coil, tables, events, control⟩

theorem resume_refused (refused : s.mdc.mode ≠ .safe .held ∨ s.standing) :
    Answered s h (commandPayload .resume []) (.nak .state) (event (requestArrives h (commandPayload .resume [])) s) :=
  request_answered r (d := .command .resume []) rfl (by simp) fun _ _ _ _ => serveResume_refused refused

/-- An accepted RESUME leads to ENTRY. -/
theorem resume_accepted (held : s.mdc.mode = .safe .held) (quiet : ¬s.standing) :
    let pl := commandPayload .resume []
    let u := event (requestArrives h pl) s
    Served s h pl u ∧ u.owes h pl ∧ EntryBegun .safe .resume (s.advance h.time) u := by
  intro pl u
  obtain ⟨z, attended, draws⟩ := request_drawn r (payload := pl) (d := .command .resume []) rfl (by simp)
  obtain ⟨m, w, l, q, rfl, -⟩ := id attended
  obtain ⟨p, alert, begun⟩ := enterEntry_eq .safe .resume ((s.serving h pl).requeued m w l q)
  have effect : serve (.command .resume []) ((s.serving h pl).requeued m w l q) =
      enterEntry .safe .resume ((s.serving h pl).requeued m w l q) := serveResume_accepted held quiet
  rw [effect] at draws
  have queue := congrArg (fun y : State => y.fwq.queue) begun
  have still := attended.still queue
  obtain ⟨chain, -⟩ := draws.kept still
  obtain ⟨mode, validating, inHand, slot, debt, recorded, paths, taken, verifying, idleTimer⟩ :=
    EntryBegun.ofSettles (draws.settles still)
  rw [begun] at chain
  exact ⟨attended.served chain ⟨rfl, rfl, rfl, rfl, rfl, ⟨rfl, rfl⟩, rfl⟩, chain.agentServing r.unheld _ rfl,
    mode, validating, inHand, slot, debt, recorded, paths, taken, verifying, idleTimer⟩

end

/-- Settles O40: each command is refused or accepted. -/
theorem enterRunAndResumeBegin : Obligations.EnterRunAndResumeBegin := by
  refine ⟨fun h s r => ⟨_, rfl, ?_⟩, fun h s r => ⟨_, rfl, ?_⟩⟩
  · by_cases refused : s.mdc.mode ≠ .config ∨ s.standing
    · have answered := enterRun_refused r refused
      exact ⟨answered.served, fun _ => ⟨answered.answers, answered.matrix, answered.still⟩,
        fun config quiet => (refused.elim (· config) quiet).elim⟩
    · obtain ⟨config, quiet⟩ := not_or.mp refused
      obtain ⟨served, owes, matrix, still⟩ := enterRun_accepted r (not_not.mp config) quiet
      exact ⟨served, fun refused' => absurd refused' refused, fun _ _ => ⟨owes, matrix, still⟩⟩
  · by_cases refused : s.mdc.mode ≠ .safe .held ∨ s.standing
    · have answered := resume_refused r refused
      exact ⟨answered.served, fun _ => ⟨answered.answers, answered.matrix, answered.still⟩,
        fun held quiet => (refused.elim (· held) quiet).elim⟩
    · obtain ⟨held, quiet⟩ := not_or.mp refused
      obtain ⟨served, owes, begun⟩ := resume_accepted r (not_not.mp held) quiet
      exact ⟨served, fun refused' => absurd refused' refused, fun _ _ => ⟨owes, begun.mode, begun.inHand, begun.slot,
        begun.debt.1, begun.debt.2, begun.recorded, begun.paths, begun.taken, begun.verifying⟩⟩

end Sys2Proof.Machine
end

section
/-! PROOF. ENTER_CONFIG (R124; O41). -/

namespace Sys2Proof.Machine

theorem withdrawRecovery_eq (s : State) : ∃ p, withdrawRecovery s =
    { s with
      vfu.requests := []
      vfu.activity := (s.vfu.activity.withoutClaim .recovery).withoutVerify .recovery
      csd.passDue := p } := by
  obtain ⟨p, released⟩ := releaseClaim_eq .recovery { s with vfu.requests := [] }
  exact ⟨p, by rw [withdrawRecovery, released, orphanVerify_eq]⟩

/-- What the unit is at once neither the debt nor the recovery asks for a verify. -/
def Activity.withoutDemands (a : Activity) : Activity :=
  ((a.withoutClaim .debtForced).withoutClaim .recovery).withoutVerify .recovery

theorem withoutDemands_claimed {b : Bank} {k : VerifyKind} (demand : k = .debtForced ∨ k = .recovery) :
    (Activity.claimed b k).withoutDemands = .free := by
  unfold Activity.withoutDemands
  obtain rfl | rfl := demand
  · rw [withoutClaim_claimed, withoutClaim_free, withoutVerify_free]
  · rw [withoutClaim_other (by decide), withoutClaim_claimed, withoutVerify_free]

theorem withoutDemands_verifying (b : Bank) (k : VerifyKind) (due : Nat) :
    ∃ x, (Activity.verifying b k due).withoutDemands = .verifying b x due :=
  withoutVerify_verifying .recovery k b due

/-- The mode becomes CONFIG: the state as it was, but for the coil side, whose positions stand and whose recovery from RUN ends. -/
theorem enterConfigMode_eq (s : State) : ∃ c alert, enterConfigMode s =
    { s with
      csd := c
      rtq.alert := alert
      mdc.mode := .config
      mdc.outstanding := Targets.none
      mdc.redrive := false
      vfu.slot := none
      vfu.idleLead := none
      vfu.idleMark := false
      vfu.requests := []
      vfu.activity := s.vfu.activity.withoutDemands } ∧
    c.recorded = s.csd.recorded ∧ (s.mdc.mode = .run → c.latch = [] ∧ c.recoveryActive = false) ∧
    alert = s.rtq.alert.map fun a => { a with flags := s.evu.latched, mode := Mode.config.shown } := by
  obtain ⟨p, released⟩ := releaseClaim_eq .debtForced
    (stopVerifyTimers (setMode .config { s with mdc.outstanding := Targets.none, mdc.redrive := false }))
  obtain ⟨p', withdrawn⟩ := withdrawRecovery_eq (withdrawDebtForced
    (stopVerifyTimers (setMode .config { s with mdc.outstanding := Targets.none, mdc.redrive := false })))
  rw [withdrawDebtForced, released] at withdrawn
  unfold enterConfigMode
  dsimp only
  rw [withdrawDebtForced, released, withdrawn]
  split
  · unfold endRecovery
    split <;> exact ⟨_, _, rfl, rfl, fun _ => ⟨rfl, rfl⟩, rfl⟩
  · next elsewhere => exact ⟨_, _, rfl, rfl, fun run => absurd run (by simpa using elsewhere), rfl⟩

/-- An ALERT frame that waits where nothing is left to be done found no room in the Return Queue (R145). -/
theorem outboxRoom_of_alert {s : State} (c : s.complete) {a : AlertFrame} (waits : s.rtq.alert = some a) :
    s.outboxRoom = false := by
  obtain ⟨-, -, -, -, -, -, -, -, pass, -⟩ := complete_parts c
  simpa [admissionPass, State.outboxReady, waits] using pass

theorem enterConfigAllowed_iff {s : State} :
    enterConfigAllowed s = true ↔ (s.mdc.mode = .run ∧ s.ste.st = .idle) ∨ s.mdc.mode = .safe .held := by
  simp [enterConfigAllowed]

theorem enterConfigMode_hand (s : State) : (enterConfigMode s).vfu.inHand = s.vfu.inHand := by
  obtain ⟨c, alert, entered, -⟩ := enterConfigMode_eq s
  rw [entered]

theorem ClaimReleased.seen {k : VerifyKind} {e f u : State} (h : ClaimReleased k f u) (vfu : f.vfu = e.vfu)
    (tbs : f.tbs = e.tbs) : ClaimReleased k e u where
  gone := h.gone
  free := by
    have free := h.free
    rwa [vfu, tbs] at free

/-- What an accepted ENTER_CONFIG leaves on the matrix side and in the ALERT outbox. -/
structure ConfigEntered (s u : State) : Prop where
  control : u.mdc.mode = .config ∧ u.mdc.redrive = false ∧ ∀ i : Elem, u.mdc.outstanding[i] = none
  recorded : u.csd.recorded = s.csd.recorded
  recovery : s.mdc.mode = .run → u.csd.latch = [] ∧ u.csd.recoveryActive = false
  timers : u.vfu.slot = none ∧ u.vfu.requests = [] ∧ u.vfu.idleLead = none ∧ u.vfu.idleMark = false
  debt : u.vfu.debt = s.vfu.debt ∧ u.vfu.round = s.vfu.round
  released : ∀ b k, s.vfu.activity = .claimed b k → k = .debtForced ∨ k = .recovery → ClaimReleased k s u
  verifying : ∀ b k due, s.vfu.activity = .verifying b k due → ∃ x, u.vfu.activity = .verifying b x due
  alert : ∀ a, s.rtq.alert = some a → s.outboxRoom = false → ∃ b, u.rtq.alert = some b ∧ b.tag = a.tag ∧
    b.mode = Mode.config.shown ∧ b.flags = u.evu.latched ∧ a.raised ||| b.raised = b.raised

theorem ConfigEntered.ofRuns {s u : State} {o : Option Frame} {g : Mga}
    (h : Runs ((enterConfigMode s).handled o g s.vfu.inHand) u) : ConfigEntered s u := by
  obtain ⟨c, alert, entered, recorded, recovery, refreshed⟩ := enterConfigMode_eq s
  rw [entered] at h
  have matrix := h.matrix
  obtain ⟨-, control, -⟩ := matrix.handed rfl
  obtain ⟨idleLead, idleMark⟩ := h.resting rfl
  exact
    { control := by rw [control]; exact ⟨rfl, rfl, fun i => Vector.getElem_replicate i.isLt⟩
      recorded := matrix.positions.trans recorded
      recovery := fun run => by
        obtain ⟨-, latch, active⟩ := matrix.recovery
        obtain ⟨latch', active'⟩ := recovery run
        exact ⟨latch.trans latch', active.trans active'⟩
      timers := ⟨matrix.slot, matrix.demands.1, idleLead, idleMark⟩
      debt := matrix.debt
      released := fun b k claimed demand => by
        have free := (congrArg Activity.withoutDemands claimed).trans (withoutDemands_claimed demand)
        refine .ofRuns h free ?_ rfl (.inl rfl)
        obtain rfl | rfl := demand
        · exact fun x kept b => debtForced_unchosen rfl kept b
        · exact fun x kept b => recovery_unchosen rfl kept b
      verifying := fun b k due verifying => by
        obtain ⟨x, goesOn⟩ := withoutDemands_verifying b k due
        exact ⟨x, matrix.verifying b x due ((congrArg Activity.withoutDemands verifying).trans goesOn)⟩
      alert := fun a waits full => by
        have waits' := refreshed.trans (congrArg (Option.map _) waits)
        obtain ⟨b, stands, tag, mode, flags, raised⟩ := (h.alert full).2 _ waits' rfl rfl
        exact ⟨b, stands, tag, mode.trans (congrArg Mode.shown (matrix.mode_eq rfl nofun)), flags, raised⟩ }

section
variable {h : ReqHead} {s : State} (r : Reaches s h)
include r

theorem enterConfig_refused (refused : ¬((s.mdc.mode = .run ∧ s.ste.st = .idle) ∨ s.mdc.mode = .safe .held)) :
    Answered s h (commandPayload .enterConfig []) (.nak .state)
      (event (requestArrives h (commandPayload .enterConfig [])) s) :=
  request_answered r (d := .command .enterConfig []) rfl (by simp) fun m w l q =>
    if_neg (mt enterConfigAllowed_iff.mp refused)

/-- An accepted ENTER_CONFIG is acknowledged, and the mode is CONFIG. -/
theorem enterConfig_accepted (allowed : (s.mdc.mode = .run ∧ s.ste.st = .idle) ∨ s.mdc.mode = .safe .held) :
    let pl := commandPayload .enterConfig []
    let u := event (requestArrives h pl) s
    Served s h pl u ∧ u.answers s h pl (.ack []) ∧ ConfigEntered s u := by
  intro pl u
  obtain ⟨z, attended, draws⟩ := request_drawn r (payload := pl) (d := .command .enterConfig []) rfl (by simp)
  obtain ⟨m, w, l, q, rfl, -⟩ := id attended
  obtain ⟨c, alert, entered, -⟩ := enterConfigMode_eq ((s.serving h pl).requeued m w l q)
  have serving : (enterConfigMode ((s.serving h pl).requeued m w l q)).mga = .serving { tag := h.tag, payload := pl } := by
    rw [entered]
    rfl
  have effect : serve (.command .enterConfig []) ((s.serving h pl).requeued m w l q) =
      answer (.ack []) (enterConfigMode ((s.serving h pl).requeued m w l q)) := if_pos (enterConfigAllowed_iff.mpr allowed)
  obtain ⟨offered, done⟩ := answer_offered (.ack []) serving
  rw [effect] at draws
  have same : ChainStands ((s.serving h pl).requeued m w l q)
      (answer (.ack []) (enterConfigMode ((s.serving h pl).requeued m w l q))) := by
    rw [answer_handled _ serving, entered]
    exact ⟨rfl, rfl, rfl, rfl, rfl, ⟨rfl, rfl⟩, rfl⟩
  have unheld : (answer (.ack []) (enterConfigMode ((s.serving h pl).requeued m w l q))).rtq.responseHeld = false := by
    rw [answer_held, entered]
    exact r.unheld
  have addr : answerFrame (enterConfigMode ((s.serving h pl).requeued m w l q)).lnk { tag := h.tag, payload := pl } (.ack []) =
      answerFrame s.lnk { tag := h.tag, payload := pl } (.ack []) := by
    rw [entered]
    rfl
  have still := attended.still (congrArg Fwq.queue same.fwq)
  have runs := (draws.settles still).runs
  have chain := (draws.kept still).1
  have notServing := Runs.notServing runs done
  rw [answer_handled _ serving, enterConfigMode_hand] at runs
  obtain ⟨control, recorded, recovery, timers, debt, released, verifying, alert⟩ := ConfigEntered.ofRuns runs
  exact ⟨attended.served chain same, ⟨addr ▸ chain.answers unheld _ offered.answered, notServing⟩, control, recorded, recovery,
    timers, debt, fun b k claimed demand => (released b k claimed demand).seen rfl rfl, verifying, alert⟩

end

/-- Settles O41: ENTER_CONFIG is refused or accepted. -/
theorem enterConfigLeavesRunAndSafe : Obligations.EnterConfigLeavesRunAndSafe := by
  intro h s r
  refine ⟨_, rfl, ?_⟩
  by_cases allowed : (s.mdc.mode = .run ∧ s.ste.st = .idle) ∨ s.mdc.mode = .safe .held
  · obtain ⟨served, answers, entered⟩ := enterConfig_accepted r allowed
    obtain ⟨mode, redrive, outstanding⟩ := entered.control
    obtain ⟨slot, requests, idleLead, idleMark⟩ := entered.timers
    exact ⟨served, entered.recorded, fun refused => absurd allowed refused, fun _ => ⟨answers, mode, redrive, outstanding, slot,
      requests, idleLead, idleMark, entered.debt.1, entered.debt.2, entered.recovery, entered.released, entered.verifying,
      fun a waits => entered.alert a waits (outboxRoom_of_alert (s := s.advance h.time) r.complete waits)⟩⟩
  · have answered := enterConfig_refused r allowed
    exact ⟨answered.served, answered.matrix.positions, fun _ => ⟨answered.answers, answered.matrix, answered.still⟩,
      fun allowed' => absurd allowed' allowed⟩

end Sys2Proof.Machine
end

section
/-! SUPPORT. The entry of SAFE (R119): what it makes of the state, but for what the end of a step in progress makes of it. -/

namespace Sys2Proof.Machine

/-! ## The idle-lead timer at the entry of SAFE (R99, R103) -/

/-- The idle-lead timer as it starts at this instant. -/
def State.leadStart (s : State) : Option Nat :=
  if s.tbs.runtime.idleLead = 0 then none else some (s.now + s.tbs.runtime.idleLead * 1000)

/-- The mark as the timer's start leaves it: a lead of 0 has expired. -/
def State.markStart (s : State) : Bool := s.tbs.runtime.idleLead = 0

theorem startIdleLead_eq (s : State) :
    startIdleLead s = { s with vfu.idleLead := s.leadStart, vfu.idleMark := s.markStart } := by
  unfold startIdleLead State.leadStart State.markStart
  split <;> simp [*]

/-- An engine that rests in RUN or SAFE has started the timer. -/
theorem State.Rests.idleTimer {s : State} (r : s.Rests) (timed : s.mdc.mode.isRunOrSafe = true) :
    s.vfu.idleLead = s.leadStart ∧ s.vfu.idleMark = s.markStart := by
  unfold State.leadStart State.markStart
  split
  · next zero => simpa [zero] using r.expired timed zero
  · next lead => simpa [lead] using r.timed timed lead

/-- A step that ends unsettled leaves the engine at rest, or waiting with its report and the Verify Unit as it was. -/
theorem endStep_rests {o : StepOutcome} (unsettled : o.isSettled = false) (reports : o ≠ .noPath) (s : State) :
    (endStep o s).Rests ∨ ((endStep o s).ste.st = .reportWait ∧ (endStep o s).vfu = s.vfu) := by
  have ste := endingAt_ste o s
  have outcome : (endingAt o s).ste.outcome = some o := by rw [ste]
  have vfu : (endingAt o s).vfu = s.vfu := by simp [endingAt]
  rw [endStep_eq_finish]
  by_cases loud : ∃ i, (endingAt o s).ste.ident = some i ∧ i.quiet = false
  · obtain ⟨i, ident, loud⟩ := loud
    rw [finishStep_unsettled ident loud unsettled]
    by_cases room : (endingAt o s).rtq.report = none
    · rw [buildReport_placed (s := { endingAt o s with ste.st := .reportWait }) [] ident outcome reports rfl room]
      exact .inl (enterIdle_rests _)
    · rw [buildReport_pending (s := { endingAt o s with ste.st := .reportWait }) [] ident outcome reports (.inr room)]
      exact .inr ⟨rfl, vfu⟩
  · rw [finishStep_quiet fun i ident => by
      by_contra loud'
      exact loud ⟨i, ident, Bool.not_eq_true _ ▸ loud'⟩]
    exact .inl (enterIdle_rests _)

/-- The Verify Unit at the entry of SAFE: the recovery's requests and claim are gone, and the timers may have started. -/
theorem verifyAtSafe_eq (fromEntry : Bool) (s : State) : ∃ p slot l m, verifyAtSafe fromEntry s =
    { s with
      csd.passDue := p
      vfu.slot := slot
      vfu.idleLead := l
      vfu.idleMark := m
      vfu.requests := []
      vfu.activity := (s.vfu.activity.withoutClaim .recovery).withoutVerify .recovery } ∧
    ((l = s.vfu.idleLead ∧ m = s.vfu.idleMark) ∨ (s.ste.st = .idle ∧ l = s.leadStart ∧ m = s.markStart)) := by
  obtain ⟨p, withdrawn⟩ := withdrawRecovery_eq s
  unfold verifyAtSafe
  rw [withdrawn]
  dsimp only
  split
  · split
    · next idle =>
      rw [startIdleLead_eq]
      exact ⟨p, _, _, _, rfl, .inr ⟨idle, rfl, rfl⟩⟩
    · exact ⟨p, _, _, _, rfl, .inl ⟨rfl, rfl⟩⟩
  · exact ⟨p, _, _, _, rfl, .inl ⟨rfl, rfl⟩⟩

/-! ## The step in progress is abandoned (R65, R119) -/

/-- SAFE as it is entered, the step in progress not yet ended. -/
def State.entering (s : State) : State := setMode (.safe .driving) { s with mdc.redrive := false }

/-- SAFE as it is entered, the step in progress ended, the drives and the verifies not yet looked after. -/
def State.abandoned (s : State) : State := abandonForSafe s.entering

theorem abandoned_of_step {s : State} (holds : s.ste.holdsStep = true) : s.abandoned = endStep .abandonedSafe s.entering :=
  if_pos holds

theorem abandoned_of_rest {s : State} (rests : ¬s.ste.holdsStep = true) : s.abandoned = s.entering := if_neg rests

theorem abandoned_mdc (s : State) : s.abandoned.mdc = { s.mdc with mode := .safe .driving, redrive := false } :=
  abandonForSafe_mdc _

@[simp] theorem abandoned_frame (s : State) : s.abandoned.now = s.now ∧ s.abandoned.tbs = s.tbs ∧ s.abandoned.csd = s.csd ∧
    s.abandoned.mga = s.mga ∧ s.abandoned.axu = s.axu := by
  simp [State.abandoned, State.entering]

/-- The end of the step leaves the Verify Unit's work alone. -/
theorem abandoned_vfu (s : State) : IdleTimed s s.abandoned := by
  by_cases holds : s.ste.holdsStep = true
  · obtain ⟨l, m, timed⟩ := endStep_timed .abandonedSafe s.entering
    rw [abandoned_of_step holds]
    exact ⟨l, m, timed⟩
  · rw [abandoned_of_rest holds]
    exact .ofSame rfl

/-- An idle mark that is clear stays clear, where the lead is not 0. -/
theorem abandoned_idleMark {s : State} (clear : s.vfu.idleMark = false) (lead : s.tbs.runtime.idleLead ≠ 0) :
    s.abandoned.vfu.idleMark = false := by
  by_cases holds : s.ste.holdsStep = true
  · have mode : s.abandoned.mdc.mode.isRunOrSafe = true := by rw [abandoned_mdc]; rfl
    obtain rests | ⟨-, same⟩ := endStep_rests (o := .abandonedSafe) rfl (by decide) s.entering
    · rw [← abandoned_of_step holds] at rests
      rw [(rests.idleTimer mode).2]
      simpa [State.markStart] using lead
    · rw [abandoned_of_step holds, same]
      exact clear
  · rw [abandoned_of_rest holds]
    exact clear

/-! ## The whole of it -/

/-- What the entry of SAFE makes of the coil side `c`, the Verify Unit `v` and the flags `f`. -/
structure SafeBegun (s : State) (c : Csd) (v : Vfu) (f : Evu) : Prop where
  coil : c.recorded = s.csd.recorded ∧ c.pulses = s.csd.pulses ∧ c.recoveryUntil = s.csd.recoveryUntil
  latch : c.latch = [] ∧ c.recoveryActive = false
  activity : v.activity = (s.vfu.activity.withoutClaim .recovery).withoutVerify .recovery
  requests : v.requests = []
  kept : v.debt = s.vfu.debt ∧ v.inHand = s.vfu.inHand
  idleMark : s.vfu.idleMark = false → s.tbs.runtime.idleLead ≠ 0 → v.idleMark = false
  idleTimer : s.ste.holdsStep = true → v.idleLead = s.abandoned.vfu.idleLead ∧ v.idleMark = s.abandoned.vfu.idleMark
  flags : ∀ i : Nat, s.abandoned.evu.latched.getLsbD i = true → f.latched.getLsbD i = true
  flagged : f.latched.getLsbD Flag.safeEntered.bit = true
  levels : f.readDue = s.abandoned.evu.readDue

/-- A signal that is no trip flag's moves the flags and the ALERT outbox. -/
theorem signal_eq {g : Flag} (noTrip : g.trip = none) (s : State) : ∃ a f, signal g s = { s with rtq.alert := a, evu := f } ∧
    (∀ i : Nat, s.evu.latched.getLsbD i = true → f.latched.getLsbD i = true) ∧ f.latched.getLsbD g.bit = true ∧
    f.readDue = s.evu.readDue := by
  refine ⟨(signal g s).rtq.alert, (signal g s).evu, ?_, signal_flags g s, signal_isLatched g s, signal_readDue g s⟩
  have latched : signal g s = latchFlag g s := by simp [signal, requestTripOf, noTrip]
  rw [latched]
  unfold latchFlag raiseAlert
  dsimp only
  repeat' split
  all_goals rfl

/-- The state in which the safe drive is formed. -/
def State.armed (s : State) : State :=
  signal .safeEntered (verifyAtSafe (s.mdc.mode != .run) (discardLatch (cancelPending s.abandoned)))

theorem armed_eq (s : State) : ∃ c v a f,
    s.armed = { s.abandoned with csd := c, vfu := v, rtq.alert := a, evu := f } ∧ SafeBegun s c v f := by
  obtain ⟨p, slot, l, m, verify, timer⟩ := verifyAtSafe_eq (s.mdc.mode != .run) (discardLatch (cancelPending s.abandoned))
  obtain ⟨a, f, signalled, flags, flagged, levels⟩ := signal_eq (g := .safeEntered) rfl
    (verifyAtSafe (s.mdc.mode != .run) (discardLatch (cancelPending s.abandoned)))
  unfold State.armed
  rw [signalled, verify]
  rw [verify] at flags levels
  obtain ⟨-, tbs, csd, -, -⟩ := abandoned_frame s
  obtain ⟨l', m', timed⟩ := abandoned_vfu s
  refine ⟨{ s.abandoned.csd with pending := Targets.none, drive := none, latch := [], recoveryActive := false, passDue := p },
    { s.abandoned.vfu with
      slot := slot
      idleLead := l
      idleMark := m
      requests := []
      activity := (s.abandoned.vfu.activity.withoutClaim .recovery).withoutVerify .recovery }, a, f, rfl, ?_⟩
  exact
    { coil := by rw [csd]; exact ⟨rfl, rfl, rfl⟩
      latch := ⟨rfl, rfl⟩
      activity := by rw [timed]
      requests := rfl
      kept := by rw [timed]; exact ⟨rfl, rfl⟩
      idleMark := fun clear lead => by
        obtain ⟨-, rfl⟩ | ⟨-, -, rfl⟩ := timer
        · exact abandoned_idleMark clear lead
        · rw [← tbs] at lead
          simpa [State.markStart] using lead
      idleTimer := fun holds => by
        obtain ⟨rfl, rfl⟩ | ⟨idle, rfl, rfl⟩ := timer
        · exact ⟨rfl, rfl⟩
        · have mode : s.abandoned.mdc.mode.isRunOrSafe = true := by rw [abandoned_mdc]; rfl
          obtain rests | ⟨waits, -⟩ := endStep_rests (o := .abandonedSafe) rfl (by decide) s.entering
          · rw [← abandoned_of_step holds] at rests
            obtain ⟨lead, mark⟩ := rests.idleTimer mode
            exact ⟨lead.symm, mark.symm⟩
          · rw [← abandoned_of_step holds] at waits
            cases waits.symm.trans idle
      flags := flags
      flagged := flagged
      levels := levels }

theorem formSafeDrive_pending {s : State} {i : Elem} (fitted : (s.tbs.classOf i).isSome) :
    (formSafeDrive s).csd.pending[i] = (safeTargets s)[i] := by
  unfold formSafeDrive
  rw [handIn_pending (s := { s with mdc.outstanding := safeTargets s }) fitted]

theorem formSafeDrive_recoveryUntil (s : State) : (formSafeDrive s).csd.recoveryUntil = s.csd.recoveryUntil := by
  simp [formSafeDrive, handIn]

theorem formSafeDrive_moves (s : State) :
    formSafeDrive s = { s with csd := (formSafeDrive s).csd, mdc.outstanding := safeTargets s } := rfl

theorem safeTargets_armed (s : State) : safeTargets s.armed = safeTargets s := by
  obtain ⟨c, v, a, f, armed, begun⟩ := armed_eq s
  obtain ⟨recorded, pulses, -⟩ := begun.coil
  rw [armed]
  exact safeTargets_congr (abandoned_frame s).2.1 pulses recorded

/-- The entry of SAFE: what becomes of the step, the coil side, the Verify Unit and the flags, and the safe drive. -/
theorem enterSafeMode_eq (s : State) : ∃ c v a f, enterSafeMode s =
    { s.abandoned with csd := c, vfu := v, rtq.alert := a, evu := f, mdc.outstanding := safeTargets s } ∧
    SafeBegun s c v f ∧ ∀ i : Elem, (s.tbs.classOf i).isSome → c.pending[i] = (safeTargets s)[i] := by
  have entered : enterSafeMode s = formSafeDrive s.armed := rfl
  obtain ⟨c, v, a, f, armed, begun⟩ := armed_eq s
  obtain ⟨pulses, recorded, latch, active, -, -⟩ := formSafeDrive_csd s.armed
  have recoveryUntil := formSafeDrive_recoveryUntil s.armed
  have pending := fun i : Elem => formSafeDrive_pending (s := s.armed) (i := i)
  have drive := formSafeDrive_moves s.armed
  rw [safeTargets_armed, armed] at drive
  rw [armed] at pulses recorded latch active recoveryUntil
  have tbs : s.armed.tbs = s.tbs := by rw [armed]; exact (abandoned_frame s).2.1
  rw [safeTargets_armed, tbs, armed] at pending
  rw [entered, armed]
  obtain ⟨recorded', pulses', recoveryUntil'⟩ := begun.coil
  exact ⟨_, v, a, f, drive, { begun with
    coil := ⟨recorded.trans recorded', pulses.trans pulses', recoveryUntil.trans recoveryUntil'⟩
    latch := ⟨latch.trans begun.latch.1, active.trans begun.latch.2⟩ }, pending⟩

end Sys2Proof.Machine
end

section
/-! SUPPORT. What the entry of SAFE leaves when the consequences have been drawn (R119 to R121): `SafeEntered`, but for the end of the step
in progress. -/

namespace Sys2Proof.Machine

/-- What the entry of SAFE needs to know of the state `y` in which it begins, seen from the state `e` of that instant. -/
structure SafeFrom (e y : State) : Prop where
  now : y.now = e.now
  tbs : y.tbs = e.tbs
  coil : y.csd.recorded = e.csd.recorded ∧ y.csd.pulses = e.csd.pulses ∧ y.csd.recoveryUntil = e.csd.recoveryUntil
  timers : y.vfu.debt = e.vfu.debt ∧ y.vfu.idleMark = e.vfu.idleMark
  recovery : ∀ b, e.vfu.activity = .claimed b .recovery → y.vfu.activity = .claimed b .recovery
  claim : ∀ b, e.mdc.mode = .run → e.vfu.activity = .claimed b .debtForced → y.vfu.activity = .claimed b .debtForced
  verifying : ∀ b k due, e.vfu.activity = .verifying b k due → ∃ x, y.vfu.activity = .verifying b x due

theorem SafeFrom.ofSame {e y : State} (now : y.now = e.now) (tbs : y.tbs = e.tbs) (csd : y.csd = e.csd) (vfu : y.vfu = e.vfu) :
    SafeFrom e y where
  now := now
  tbs := tbs
  coil := by rw [csd]; exact ⟨rfl, rfl, rfl⟩
  timers := by rw [vfu]; exact ⟨rfl, rfl⟩
  recovery b claimed := by rw [vfu, claimed]
  claim b _ claimed := by rw [vfu, claimed]
  verifying b k due verifying := ⟨k, by rw [vfu, verifying]⟩

section
variable {e y u : State} {o : Option Frame} {g : Mga} (origin : SafeFrom e y)
  (h : Settles ((enterSafeMode y).handled o g (enterSafeMode y).vfu.inHand) u)
include origin h

/-- SAFE is entered. -/
theorem SafeEntered.ofSettles (ended : e.ste.holdsStep = true → Ended e .abandonedSafe u) : SafeEntered e u := by
  obtain ⟨c, v, a, f, entered, begun, pending⟩ := enterSafeMode_eq y
  have targets : safeTargets y = safeTargets e := safeTargets_congr origin.tbs origin.coil.2.1 origin.coil.1
  have control := abandoned_mdc y
  obtain ⟨now, tbs, -, -, -⟩ := abandoned_frame y
  rw [entered, targets] at h
  rw [targets, origin.tbs] at pending
  have runs := h.runs
  have matrix := runs.matrix
  generalize hT : State.handled _ _ _ _ = T at h runs matrix
  have mode : T.mdc.mode = .safe .driving := by rw [← hT]; exact congrArg Mdc.mode control
  have outstanding : T.mdc.outstanding = safeTargets e := by rw [← hT]; rfl
  have csd : T.csd = c := by rw [← hT]; rfl
  have vfu : T.vfu = v := by rw [← hT]; rfl
  have evu : T.evu = f := by rw [← hT]; rfl
  have lead : T.tbs.runtime.idleLead = e.tbs.runtime.idleLead := by rw [← hT, ← origin.tbs, ← tbs]; rfl
  have clock : T.now = e.now := by rw [← hT, ← origin.now, ← now]; rfl
  have inFlight : c.anyInFlight = e.csd.anyInFlight := anyInFlight_congr (begun.coil.2.1.trans origin.coil.2.1)
  have idle : ∀ b, T.csd.bankIdle b T.now = e.csd.bankIdle b e.now := fun b => by
    rw [clock, csd]
    refine bankIdle_congr (fun i _ => ?_) (begun.coil.2.2.trans origin.coil.2.2)
    rw [begun.coil.2.1, origin.coil.2.1]
  refine
    { mode := ?mode
      flagged := matrix.flags _ (by rw [evu]; exact begun.flagged)
      latch := ?latch
      requests := matrix.demands.1.trans (by rw [vfu, begun.requests])
      released := fun b claimed => ?released
      claimKept := fun b run claimed => ?claimKept
      verifying := fun b k due verifying => ?verifying
      positions := by rw [matrix.positions, csd, begun.coil.1, origin.coil.1]
      abandoned := ended
      driven := fun n p i index path away => ?driven }
  case mode =>
    obtain same | ⟨-, held⟩ := matrix.mode
    · exact .inl (same.trans mode)
    · have complete : safeComplete T = true := by
        by_contra open_
        rw [(matrix.handed (Bool.eq_false_of_not_eq_true open_)).2.1, mode] at held
        cases held
      simp only [safeComplete, mode, outstanding, csd, inFlight, Bool.and_eq_true, Bool.not_eq_true', Targets.isEmpty_iff]
        at complete
      obtain ⟨⟨⟨-, empty⟩, still⟩, -⟩ := complete
      exact .inr ⟨held, empty, still⟩
  case latch =>
    obtain ⟨-, latch, active⟩ := matrix.recovery
    rw [latch, active, csd]
    exact begun.latch
  case released =>
    refine .ofRuns runs ?_ (fun x kept b => recovery_unchosen (by rw [vfu, begun.requests]) kept b)
      (by rw [vfu, begun.kept.1, origin.timers.1]) (.inr ⟨by rw [mode]; rfl, fun mark lead' => ?_⟩)
    · rw [vfu, begun.activity, origin.recovery b claimed, withoutClaim_claimed, withoutVerify_free]
    · rw [vfu, lead]
      exact ⟨begun.idleMark (origin.timers.2.trans mark) (by rw [origin.tbs]; exact lead'), lead'⟩
  case claimKept =>
    have kept : T.vfu.activity = .claimed b .debtForced := by
      rw [vfu, begun.activity, origin.claim b run claimed, withoutClaim_other (by decide), withoutVerify_claimed]
    rw [h.claimed kept, idle, clock]
  case verifying =>
    obtain ⟨x, goesOn⟩ := origin.verifying b k due verifying
    obtain ⟨z, orphan⟩ := withoutVerify_verifying .recovery x b due
    refine ⟨z, matrix.verifying b z due ?_⟩
    rw [vfu, begun.activity, goesOn, withoutClaim_verifying, orphan]
  case driven =>
    have target := safeTargets_of_away index path away
    have outstanding' : T.mdc.outstanding[i] = some p.targets[i] := by rw [outstanding, target]
    have open_ := safeComplete_of_outstanding outstanding'
    refine ⟨by rw [(matrix.handed open_).2.1, outstanding'], fun fitted => matrix.driven open_ ?_⟩
    rw [csd, pending i fitted, target]

end

end Sys2Proof.Machine
end

section
/-! SUPPORT. The step that the entry of SAFE abandons, when the consequences have been drawn (R57 to R62, R65). -/

namespace Sys2Proof.Machine

/-- The state `u`, with what the entry of SAFE changes beside the step as it stood in `t`. -/
def State.graft (t u : State) : State :=
  { u with
    csd := t.csd
    tbs := t.tbs
    mdc := t.mdc
    mga := t.mga
    rtq.response := t.rtq.response
    rtq.responseHeld := t.rtq.responseHeld
    vfu := { t.vfu with idleLead := u.vfu.idleLead, idleMark := u.vfu.idleMark }
    evu := { t.evu with latched := u.evu.latched } }

/-- The ending of a step speaks of the step, its frame, its report, the flags and the engine's rest alone. -/
theorem Ended.ofGraft {e t u : State} {o : StepOutcome} (rests : (t.graft u).Rests → u.Rests) (h : Ended e o (t.graft u)) :
    Ended e o u :=
  have offered : ∀ {f}, ReportOffered e f (t.graft u) → ReportOffered e f u := fun r =>
    ⟨r.onItsWay, fun empty => (r.placed empty).imp_left rests, r.waits⟩
  { h with
    quiet := fun i ident quiet => (h.quiet i ident quiet).imp_left rests
    unsettled := fun i ident loud unsettled => (h.unsettled i ident loud unsettled).imp_right offered
    listless := fun i p ident loud settles snapshot list =>
      (h.listless i p ident loud settles snapshot list).imp_right offered }

/-- An unsettled ending makes no route request, so it does not depend on where the elements stand (R31, R60). -/
theorem Ended.ofCoil {e u : State} {o : StepOutcome} (unsettled : o.isSettled = false) (c : Csd) (h : Ended e o u) :
    Ended { e with csd := c } o u :=
  { h with
    unsettled := fun i ident loud unsettled => (h.unsettled i ident loud unsettled).imp_right fun r =>
      ⟨r.onItsWay, r.placed, r.waits⟩
    listless := fun _ _ _ _ settles => by simp [unsettled] at settles
    requested := fun _ _ _ _ settles => by simp [unsettled] at settles }

/-- Where the engine holds no frame, the ending says nothing of the Forward Queue. -/
theorem Ended.ofQueue {e u : State} {o : StepOutcome} (free : ∀ x ∈ e.fwq.queue.head?, x.status ≠ .held) {q : List FwdEntry}
    (h : Ended e o { u with fwq.queue := q }) : Ended e o u :=
  have offered : ∀ {f}, ReportOffered e f { u with fwq.queue := q } → ReportOffered e f u := fun r =>
    ⟨r.onItsWay, fun empty => (r.placed empty).imp_left fun z => ⟨z.state, z.discarded, z.timed, z.expired⟩, r.waits⟩
  { h with
    quiet := fun i ident quiet => (h.quiet i ident quiet).imp_left fun z => ⟨z.state, z.discarded, z.timed, z.expired⟩
    unsettled := fun i ident loud unsettled => (h.unsettled i ident loud unsettled).imp_right offered
    listless := fun i p ident loud settles snapshot list =>
      (h.listless i p ident loud settles snapshot list).imp_right offered
    released := fun x rest head held => absurd held (free x (by simp [head]))
    echo := fun x rest head held => absurd held (free x (by simp [head])) }

section
variable {t u : State} {c : Csd} {v : Vfu} {a : Option AlertFrame} {f : Evu} {d : Targets} {o : Option Frame} {g : Mga}
  {i : Option InHand}
  (k : Kept (State.handled { t with csd := c, vfu := v, rtq.alert := a, evu := f, mdc.outstanding := d } o g i) u)
  (safe : t.mdc.mode = .safe .driving)
include k safe

/-- The engine rests after the entry of SAFE as it does beside it. -/
theorem graft_rests_iff : (t.graft u).Rests ↔ u.Rests := by
  have timed : u.mdc.mode.isRunOrSafe = true ∧ t.mdc.mode.isRunOrSafe = true := by
    refine ⟨?_, by rw [safe]; rfl⟩
    obtain mode | ⟨-, mode⟩ := k.2.mode
    · exact congrArg Mode.isRunOrSafe (mode.trans safe)
    · rw [mode]
      rfl
  have lead : u.tbs.runtime.idleLead = t.tbs.runtime.idleLead := by
    rw [k.2.tables]
    rfl
  constructor
  · intro r
    exact ⟨r.state, r.discarded, fun _ => lead ▸ r.timed timed.2, fun _ => lead ▸ r.expired timed.2⟩
  · intro r
    exact ⟨r.state, r.discarded, fun _ => lead ▸ r.timed timed.1, fun _ => lead ▸ r.expired timed.1⟩

/-- What the consequences leave alone of the state in which the step has ended, the rest of the entry of SAFE set aside. -/
theorem graft_kept (lead : v.idleLead = t.vfu.idleLead ∧ v.idleMark = t.vfu.idleMark)
    (flags : ∀ i : Nat, t.evu.latched.getLsbD i = true → f.latched.getLsbD i = true) : Kept t (t.graft u) := by
  obtain ⟨chain, matrix⟩ := id k
  constructor
  · exact
      { pending := chain.pending
        now := chain.now
        inReset := chain.inReset
        straps := chain.straps
        links := chain.links
        marks := chain.marks
        checks := chain.checks
        drops := chain.drops
        wires := chain.wires
        dark := chain.dark
        sending := chain.sending
        slot := chain.slot
        forward := chain.forward
        forwardKept := chain.forwardKept
        back := chain.back
        barred := chain.barred
        unheld := id
        answers := fun _ f answered => answered.imp_right (Or.imp_right fun mem => chain.back.subset mem)
        reports := chain.reports
        echoes := chain.echoes
        agentIdle := id
        held := fun held flies r serving => ⟨held, rfl, rfl, flies⟩
        agentServing := fun _ _ => id }
  · exact
      { clock := matrix.clock
        tables := rfl
        lines := matrix.lines
        route := matrix.route
        evaluating := matrix.evaluating
        engine := matrix.engine
        result := matrix.result
        timers := matrix.timers
        marked := matrix.marked
        step := fun stands => ⟨(matrix.step stands).step, (matrix.step stands).idleTimer.1.trans lead.1,
          (matrix.step stands).idleTimer.2.trans lead.2⟩
        placed := fun waits idle => (matrix.placed waits idle).imp_left (graft_rests_iff k safe).mpr
        positions := rfl
        recovery := ⟨rfl, rfl, rfl⟩
        lockouts := rfl
        supply := rfl
        handed := fun open_ => ⟨open_, rfl, fun _ => .inl rfl⟩
        flights := fun _ _ => id
        launches := fun _ _ flies new => absurd flies new
        worn := fun _ _ => ⟨rfl, rfl⟩
        debt := ⟨rfl, rfl⟩
        slot := rfl
        demands := ⟨rfl, rfl⟩
        verifying := fun _ _ _ => id
        mode := .inl rfl
        requests := ⟨rfl, rfl⟩
        flags := fun i latched => matrix.flags i (flags i latched)
        levels := rfl }

end

/-- What the abandoned step needs to know of the state `y` in which SAFE is entered, seen from the state `e` of that instant. -/
structure StepFrom (e y : State) : Prop where
  now : y.now = e.now
  ste : y.ste = e.ste
  route : y.rev.route = e.rev.route
  straps : y.lnk.addr = e.lnk.addr ∧ y.lnk.margin = e.lnk.margin
  outbox : y.rtq.queue = e.rtq.queue ∧ y.rtq.report = e.rtq.report
  tables : y.tbs = e.tbs
  chain : e.fwq.queue = [] ∨ (y.fwq.queue = e.fwq.queue ∧ y.lnk.b.link = e.lnk.b.link ∧ y.rtq.echo = e.rtq.echo)

/-- The entry of SAFE ends the step in progress ABANDONED_SAFE (R65). -/
theorem abandoned_ended {e y u : State} {o : Option Frame} {g : Mga} {i : Option InHand} (origin : StepFrom e y)
    (k : Kept ((enterSafeMode y).handled o g i) u) (holds : e.ste.holdsStep = true) : Ended e .abandonedSafe u := by
  obtain ⟨c, v, a, f, entered, begun, -⟩ := enterSafeMode_eq y
  have holds' : y.ste.holdsStep = true := by rw [origin.ste]; exact holds
  have safe : y.abandoned.mdc.mode = .safe .driving := by rw [abandoned_mdc]
  have same : SameStep e { y.entering with csd := e.csd } :=
    ⟨origin.now, by rw [← origin.ste]; rfl, origin.route, origin.straps, origin.outbox, origin.tables, rfl⟩
  rw [entered] at k
  have kept := graft_kept k safe (begun.idleTimer holds') begun.flags
  have rests := (graft_rests_iff k safe).mp
  rw [abandoned_of_step holds'] at kept rests
  exact (((ended_of_kept (by decide) kept).ofGraft rests).ofCoil rfl e.csd).congr same origin.chain

end Sys2Proof.Machine
end

section
/-! PROOF. ENTER_SAFE (R125; O42). -/

namespace Sys2Proof.Machine

theorem enterSafeMode_addr (s : State) : (enterSafeMode s).lnk.addr = s.lnk.addr := by
  obtain ⟨c, v, a, f, entered, -⟩ := enterSafeMode_eq s
  have kept : s.abandoned.lnk.addr = s.lnk.addr := by
    unfold State.abandoned abandonForSafe
    split
    · simp [endStep_eq_finish, State.entering]
    · simp [State.entering]
  rw [entered]
  exact kept

theorem enterSafeMode_queue {s : State} (free : ∀ x ∈ s.fwq.queue.head?, x.status ≠ .held) :
    (enterSafeMode s).fwq.queue = s.fwq.queue := by
  obtain ⟨c, v, a, f, entered, -⟩ := enterSafeMode_eq s
  have kept : s.abandoned.fwq.queue = s.fwq.queue := by
    unfold State.abandoned abandonForSafe
    split
    · exact endStep_queue (s := s.entering) free .abandonedSafe
    · rfl
  rw [entered]
  exact kept

/-- The answer frame carries the part's address, and nothing else of the link. -/
theorem answerFrame_congr {l m : Lnk} (addr : m.addr = l.addr) (r : Request) (x : Result) :
    answerFrame m r x = answerFrame l r x := by
  simp [answerFrame, ownFrame, Lnk.addrByte, addr]

section
variable {h : ReqHead} {s : State} (r : Reaches s h)
include r

/-- ENTER_SAFE in RUN is acknowledged, and SAFE is entered. -/
theorem enterSafe_run (run : s.mdc.mode = .run) :
    let pl := commandPayload .enterSafe []
    let u := event (requestArrives h pl) s
    u.answers s h pl (.ack []) ∧ SafeEntered (s.advance h.time) u := by
  intro pl u
  obtain ⟨z, attended, draws⟩ := request_drawn r (payload := pl) (d := .command .enterSafe []) rfl (by simp)
  have queue : (enterSafeMode z).fwq.queue = z.fwq.queue :=
    enterSafeMode_queue fun x mem => by simp [attended.released (List.mem_of_mem_head? mem)]
  have origin : SafeFrom (s.advance h.time) z ∧ StepFrom (s.advance h.time) z ∧ z.mdc.mode = .run ∧ z.lnk.addr = s.lnk.addr ∧
      z.mga = .serving { tag := h.tag, payload := pl } ∧ z.rtq.responseHeld = false := by
    obtain ⟨m, w, l, q, rfl, -⟩ := attended
    exact ⟨.ofSame rfl rfl rfl rfl, ⟨rfl, rfl, rfl, ⟨rfl, rfl⟩, ⟨rfl, rfl⟩, rfl, .inl r.empty⟩, run, rfl, rfl, r.unheld⟩
  obtain ⟨safe, step, mode, addr, serving, unheld⟩ := origin
  have serving' : (enterSafeMode z).mga = .serving { tag := h.tag, payload := pl } := by simpa using serving
  have effect : serve (.command .enterSafe []) z = answer (.ack []) (enterSafeMode z) := by
    change serveEnterSafe z = _
    simp [serveEnterSafe, mode]
  obtain ⟨offered, done⟩ := answer_offered (.ack []) serving'
  have held : (answer (.ack []) (enterSafeMode z)).rtq.responseHeld = false :=
    (answer_held _ _).trans ((enterSafeMode_carried z).agent.held.trans unheld)
  rw [answerFrame_congr ((enterSafeMode_addr z).trans addr)] at offered
  rw [effect] at draws
  have still := attended.still (x := answer (.ack []) (enterSafeMode z)) (by simpa using queue)
  have settles := draws.settles still
  have kept := draws.kept still
  refine ⟨⟨kept.1.answers held _ offered.answered, settles.runs.notServing done⟩, ?_⟩
  rw [answer_handled _ serving'] at settles kept
  exact .ofSettles safe settles (abandoned_ended step kept)

theorem enterSafe_safe {sub : SafeSub} (safe : s.mdc.mode = .safe sub) :
    Answered s h (commandPayload .enterSafe []) (.ack []) (event (requestArrives h (commandPayload .enterSafe [])) s) :=
  request_answered r (d := .command .enterSafe []) rfl (by simp) fun m w l q => by
    have mode : ((s.serving h (commandPayload .enterSafe [])).requeued m w l q).mdc.mode = .safe sub := safe
    change serveEnterSafe _ = _
    rw [serveEnterSafe, mode]

theorem enterSafe_config (config : s.mdc.mode = .config) :
    Answered s h (commandPayload .enterSafe []) (.nak .state) (event (requestArrives h (commandPayload .enterSafe [])) s) :=
  request_answered r (d := .command .enterSafe []) rfl (by simp) fun m w l q => by
    have mode : ((s.serving h (commandPayload .enterSafe [])).requeued m w l q).mdc.mode = .config := config
    change serveEnterSafe _ = _
    rw [serveEnterSafe, mode]

end

/-- Settles O42: each mode by its own case. -/
theorem enterSafeActsByMode : Obligations.EnterSafeActsByMode := by
  refine fun h s r => ⟨_, rfl, fun run => enterSafe_run r run, fun safe => ?_, fun config => ?_⟩
  · obtain ⟨sub, mode⟩ : ∃ sub, s.mdc.mode = .safe sub := by
      cases mode : s.mdc.mode with
      | safe sub => exact ⟨sub, rfl⟩
      | run | config | entry => simp [mode, Mode.isSafe] at safe
    have answered := enterSafe_safe r mode
    exact ⟨answered.answers, answered.served, answered.matrix, answered.still⟩
  · have answered := enterSafe_config r config
    exact ⟨answered.answers, answered.served, answered.matrix, answered.still⟩

end Sys2Proof.Machine
end

section
/-! SUPPORT. A trip in RUN, SAFE and CONFIG, and in ENTRY (R116 to R119). -/

namespace Sys2Proof.Machine

/-- The entry of SAFE, where the front of the Forward Queue is firm. -/
theorem safeEntered_settled {e y : State} (safe : SafeFrom e y) (step : StepFrom e y) (firm : y.frontFirm) :
    SafeEntered e (settled (enterSafeMode y)) :=
  have still := (enterSafeMode_frontFirm firm).still
  .ofSettles (g := (enterSafeMode y).mga) (o := (enterSafeMode y).rtq.response) safe ((settled_draws _).settles still)
    (abandoned_ended (g := (enterSafeMode y).mga) (o := (enterSafeMode y).rtq.response)
      (i := (enterSafeMode y).vfu.inHand) step (settled_kept _ still))

/-- The state in which a trip is taken: its request no longer waits. -/
def State.tripped (s : State) (time : Nat) (rest : List TripCause) : State := { s.advance time with mdc.trips := rest }

theorem tripEffect_eq {s : State} {c : TripCause} {rest : List TripCause} (trips : s.mdc.trips = c :: rest) (time : Nat) :
    takeTrip (s.advance time) = tripBy c (s.tripped time rest) := by
  have waits : (s.advance time).mdc.trips = c :: rest := trips
  unfold takeTrip
  rw [waits]
  rfl

/-- A trip in RUN enters SAFE. -/
theorem trip_run {s : State} (firm : s.frontFirm) (time : Nat) (rest : List TripCause) :
    let u := settled (enterSafeMode (s.tripped time rest))
    u.mdc.trips = rest ∧ SafeEntered (s.advance time) u := by
  intro u
  have firm' : (s.tripped time rest).frontFirm := firm
  have matrix := (settled_kept _ (enterSafeMode_frontFirm firm').still).2
  exact ⟨matrix.requests.1.trans (enterSafeMode_carried _).reading.trips,
    safeEntered_settled (.ofSame rfl rfl rfl rfl) ⟨rfl, rfl, rfl, ⟨rfl, rfl⟩, ⟨rfl, rfl⟩, rfl, .inr ⟨rfl, rfl, rfl⟩⟩ firm'⟩

/-- A trip in SAFE or CONFIG changes nothing but that its request no longer waits. -/
theorem trip_resting {s : State} (resting : s.mdc.mode = .config ∨ s.mdc.mode.isSafe = true) (q : s.frontStill) (c : TripCause)
    (time : Nat) (rest : List TripCause) :
    let u := settled (tripBy c (s.tripped time rest))
    KeptChain (s.advance time) u ∧ KeptMatrix (s.tripped time rest) u := by
  intro u
  have mode : (s.tripped time rest).mdc.mode = s.mdc.mode := rfl
  have effect : tripBy c (s.tripped time rest) = s.tripped time rest := by
    unfold tripBy
    rw [mode]
    cases m : s.mdc.mode with
    | safe | config => rfl
    | run | entry => simp [m, Mode.isSafe] at resting
  have still : (s.tripped time rest).frontStill := q
  have taken : KeptChain (s.advance time) (s.tripped time rest) := .ofSame rfl rfl rfl rfl rfl rfl rfl rfl rfl
  obtain ⟨chain, matrix⟩ := settled_kept _ still
  change KeptChain _ (settled (tripBy c _)) ∧ KeptMatrix _ (settled (tripBy c _))
  rw [effect]
  exact ⟨taken.trans chain, matrix⟩

/-! ## ENTRY is left (R116, R118) -/

/-- The ENTRY sequence out of the unit's hand, and its claim released. -/
theorem withdrawSequence_eq {s : State} {x : Bank} (hand : s.vfu.inHand = some (.entry x)) : ∃ p, withdrawSequence s =
    { s with
      vfu.inHand := none
      vfu.activity := (s.vfu.activity.withoutClaim .command).withoutVerify .command
      csd.passDue := p } := by
  obtain ⟨p, released⟩ := releaseClaim_eq .command { s with vfu.inHand := none }
  refine ⟨p, ?_⟩
  unfold withdrawSequence
  rw [hand]
  dsimp only
  rw [released, orphanVerify_eq]

/-- The state in which ENTRY is left: the sequence out of the hand, its request answered, and trip requests left that wait. -/
structure EntryLeft (s : State) (rest : List TripCause) (r : Request) (x : Result) (y : State) : Prop where
  safe : SafeFrom s y
  step : StepFrom s y
  hand : y.vfu.inHand = none
  requests : y.vfu.requests = s.vfu.requests
  trips : y.mdc.trips = rest
  released : ∀ b, s.vfu.activity = .claimed b .command → y.vfu.activity = .free
  others : ∀ b, s.vfu.activity = .claimed b .debtForced → y.vfu.activity = .claimed b .debtForced
  queue : y.fwq.queue = s.fwq.queue ∧ y.lnk.b.link = s.lnk.b.link
  offered : y.offered (answerFrame s.lnk r x)
  held : y.rtq.responseHeld = s.rtq.responseHeld

theorem EntryLeft.of_answer {s : State} {o : EntryOrigin} {q : EntryRequest} {r : Request} {b : Bank}
    (entry : s.mdc.mode = .entry o q) (serving : s.mga = .serving r) (hand : s.vfu.inHand = some (.entry b)) (x : Result)
    (rest : List TripCause) : EntryLeft s rest r x (answer x (withdrawSequence { s with mdc.trips := rest })) := by
  obtain ⟨p, withdrawn⟩ := withdrawSequence_eq (s := { s with mdc.trips := rest }) hand
  rw [withdrawn]
  generalize hw : State.mk _ _ _ _ _ _ _ _ _ _ _ _ _ _ _ _ = w
  have serving' : w.mga = .serving r := by rw [← hw]; exact serving
  have offered := (answer_offered x serving').1
  rw [answer_handled x serving'] at offered ⊢
  rw [← hw] at offered ⊢
  exact
    { safe :=
        { now := rfl
          tbs := rfl
          coil := ⟨rfl, rfl, rfl⟩
          timers := ⟨rfl, rfl⟩
          recovery := fun b claimed => congrArg (fun a : Activity => (a.withoutClaim .command).withoutVerify .command) claimed
          claim := fun b run => by rw [entry] at run; cases run
          verifying := fun b k due verifying => by
            obtain ⟨y, goesOn⟩ := withoutVerify_verifying .command k b due
            exact ⟨y, (congrArg (fun a : Activity => (a.withoutClaim .command).withoutVerify .command) verifying).trans goesOn⟩ }
      step := ⟨rfl, rfl, rfl, ⟨rfl, rfl⟩, ⟨rfl, rfl⟩, rfl, .inr ⟨rfl, rfl, rfl⟩⟩
      hand := rfl
      requests := rfl
      trips := rfl
      released := fun b claimed => congrArg (fun a : Activity => (a.withoutClaim .command).withoutVerify .command) claimed
      others := fun b claimed => congrArg (fun a : Activity => (a.withoutClaim .command).withoutVerify .command) claimed
      queue := ⟨rfl, rfl⟩
      offered := offered
      held := rfl }

section
variable {s y : State} {rest : List TripCause} {r : Request} {x : Result} (left : EntryLeft s rest r x y) (firm : s.headFirm)
  (unheld : s.rtq.responseHeld = false)
include left firm unheld

/-- What ENTRY leaves that is left for SAFE. -/
theorem EntryLeft.toSafe : let u := settled (enterSafeMode y)
    u.mdc.trips = rest ∧ u.vfu.inHand = none ∧ u.answered (answerFrame s.lnk r x) ∧
      (∀ b, s.vfu.activity = .claimed b .command → ClaimReleased .command s u) ∧ SafeEntered s u := by
  intro u
  have firm' : y.frontFirm := .inl (headFirm_of_same left.queue.1 left.queue.2 firm)
  have still := (enterSafeMode_frontFirm firm').still
  obtain ⟨chain, matrix⟩ := settled_kept _ still
  have carried := enterSafeMode_carried y
  have hand := carried.agent.inHand.trans left.hand
  have runs := ((settled_draws _).settles still).runs
  refine ⟨(matrix.requests.1.trans carried.reading.trips).trans left.trips, matrix.demands.2.trans hand,
    chain.answers ((carried.agent.held.trans left.held).trans unheld) _ (carried.agent.offered left.offered).answered,
    fun b claimed => ?_, safeEntered_settled left.safe left.step firm'⟩
  obtain ⟨c, v, a, f, entered, begun, -⟩ := enterSafeMode_eq y
  refine .ofRuns runs ?_ (fun z kept b => command_unchosen hand kept b) (carried.reading.paid.1.trans left.safe.timers.1)
    (.inr ⟨by rw [enterSafeMode_mode]; rfl, fun mark lead => ?_⟩)
  · rw [entered]
    exact begun.activity.trans (by rw [left.released b claimed, withoutClaim_free, withoutVerify_free])
  · have lead' : y.tbs.runtime.idleLead ≠ 0 := by rw [left.safe.tbs]; exact lead
    have mark' := begun.idleMark (left.safe.timers.2.trans mark) lead'
    refine ⟨by rw [entered]; exact mark', by simpa using lead'⟩

/-- What ENTRY leaves that is left for CONFIG. -/
theorem EntryLeft.toConfig : let u := settled (returnToConfig y)
    u.mdc.trips = rest ∧ u.vfu.inHand = none ∧ u.answered (answerFrame s.lnk r x) ∧
      (∀ b, s.vfu.activity = .claimed b .command → ClaimReleased .command s u) ∧ u.mdc.mode = .config ∧
      ∀ b, s.vfu.activity = .claimed b .debtForced → ClaimReleased .debtForced s u := by
  intro u
  have still : (returnToConfig y).frontStill :=
    (headFirm_of_same (by simpa [returnToConfig] using left.queue.1) (by simpa [returnToConfig] using left.queue.2) firm).still
  obtain ⟨chain, matrix⟩ := settled_kept _ still
  have carried := returnToConfig_carried y
  have hand := carried.agent.inHand.trans left.hand
  have runs := ((settled_draws _).settles still).runs
  have config := returnToConfig_mode y
  have debt := carried.reading.paid.1.trans left.safe.timers.1
  obtain ⟨p, returned⟩ := releaseClaim_eq .debtForced (stopVerifyTimers (setMode .config y))
  have activity : (returnToConfig y).vfu.activity = y.vfu.activity.withoutClaim .debtForced := by
    unfold returnToConfig withdrawDebtForced
    rw [returned]
    rfl
  refine ⟨(matrix.requests.1.trans carried.reading.trips).trans left.trips, matrix.demands.2.trans hand,
    chain.answers ((carried.agent.held.trans left.held).trans unheld) _ (carried.agent.offered left.offered).answered,
    fun b claimed => ?_, matrix.mode_eq config nofun, fun b claimed => ?_⟩
  · refine .ofRuns runs ?_ (fun z kept b => command_unchosen hand kept b) debt (.inl config)
    rw [activity, left.released b claimed, withoutClaim_free]
  · refine .ofRuns runs ?_ (fun z kept b => debtForced_unchosen config kept b) debt (.inl config)
    rw [activity, left.others b claimed, withoutClaim_claimed]

end

end Sys2Proof.Machine
end

section
/-! SUPPORT. A step frame that waits at the head when SAFE is entered (R48, R139): it goes on, stamped SKIPPED, once the consequences that
come before the examination of the head have been drawn. -/

namespace Sys2Proof.Machine

/-- A step frame waits at the head in SAFE, the agent idle and Port B's link UP, and no redrive is marked. -/
structure HeadWaits (y : FwdEntry) (l : List FwdEntry) (s : State) : Prop where
  safe : s.mdc.mode.isSafe = true
  redrive : s.mdc.redrive = false
  idle : s.mga = .idle
  up : s.lnk.b.link = .up
  queue : s.fwq.queue = y :: l
  status : y.status = .waiting
  step : y.frame.isStep = true

/-- The head once it has been examined in SAFE (R48). -/
def FwdEntry.skipped (y : FwdEntry) : FwdEntry := { frame := y.frame.stamp 2, status := .released, own := true }

/-- The kinds of consequences that come before the examination of the head and may be due while the agent is idle. -/
def Prior (s t : State) : Prop :=
  Early s t ∨ completeSafe s = some t ∨ endHold s = some t ∨ offerReport s = some t

/-- What may still have to be done before the head is examined. -/
def State.prior (s : State) : Nat :=
  s.early + (if s.mdc.mode = .safe .driving then 1 else 0) + (if s.rtq.responseHeld then 1 else 0)
    + (if s.ste.st = .reportWait then 1 else 0)

theorem State.prior_le (s : State) : s.prior ≤ 8 := by
  have := s.early_le
  unfold State.prior
  repeat' split
  all_goals omega

theorem early_congr {s t : State} (rev : t.rev.evaluation = s.rev.evaluation) (tbs : t.tbs = s.tbs) (csd : t.csd = s.csd)
    (activity : t.vfu.activity = s.vfu.activity) : t.early = s.early := by
  have restarts := restart_isSome_congr rev tbs csd
  unfold State.early
  rw [restarts, csd, activity]

/-- Each brings the examination of the head nearer. -/
theorem Prior.nearer {s t : State} (h : Prior s t) (redrive : s.mdc.redrive = false) : t.prior < s.prior ∧
    t.mdc.redrive = false := by
  obtain h | h | h | h := h
  · obtain ⟨nearer, mdc, -, st, held⟩ := h.nearer
    unfold State.prior
    rw [mdc, st, held]
    exact ⟨by omega, redrive⟩
  · obtain ⟨driving, ⟨marked, -⟩ | ⟨-, rfl⟩⟩ := completeSafe_cases h
    · rw [redrive] at marked
      cases marked
    · have early := early_congr (t := setMode (.safe .held) s) (s := s) rfl rfl rfl rfl
      have held : (setMode (.safe .held) s).mdc.mode = .safe .held := rfl
      unfold State.prior
      rw [early, held, driving]
      exact ⟨by simp, redrive⟩
  · unfold endHold at h
    split at h <;> cases h
    next ends =>
      obtain ⟨held, -⟩ := Bool.and_eq_true_iff.mp ends
      have early := early_congr (t := { s with rtq.responseHeld := false, mga := .idle }) (s := s) rfl rfl rfl rfl
      unfold State.prior
      rw [early, held]
      exact ⟨by simp, redrive⟩
  · have same := offerReport_frame s h
    have early := early_congr (t := t) (s := s) (by simp [same]) (by simp [same]) (by simp [same]) (offerReport_activity h)
    unfold offerReport at h
    split at h
    · next waits _ _ =>
      cases h
      unfold State.prior
      rw [early]
      simp [waits, redrive]
    · cases h

section
variable {y : FwdEntry} {l : List FwdEntry} {s : State} (w : HeadWaits y l s)
include w

theorem HeadWaits.examined : examineHead s = some (setHead y.skipped s) := by
  obtain ⟨safe, -, idle, up, queue, status, step⟩ := w
  have away : s.mdc.mode ≠ .run := fun run => by rw [run] at safe; cases safe
  unfold examineHead treatHead
  rw [idle, queue]
  dsimp only
  rw [status]
  dsimp only
  rw [if_pos step, if_pos (by simp [away]), releaseHead_up up]
  rfl

/-- The examination takes no step, so the Verify Unit's choice does not depend on it (R74). -/
theorem HeadWaits.chooses : chooseVerify s = verifyAction s := by
  unfold chooseVerify
  rw [w.examined]
  cases verifyAction s with
  | none => rfl
  | some v => simp

/-- Before the head is examined. -/
theorem HeadWaits.react : (∃ t, react s = some t ∧ Prior s t) ∨
    (react s = some (setHead y.skipped s) ∧ verifyAction s = none) := by
  have offer : offerAnswer s = none := by simp [offerAnswer, w.idle]
  cases restarts : restartEvaluation s with
  | some t => exact .inl ⟨t, by simp [Machine.react, restarts], .inl (.inl restarts)⟩
  | none =>
  cases pass : makePass s with
  | some t => exact .inl ⟨t, by simp [Machine.react, restarts, pass], .inl (.inr (.inl pass))⟩
  | none =>
  cases action : verifyAction s with
  | some t =>
    exact .inl ⟨t, by simp [Machine.react, restarts, pass, w.chooses, action], .inl (.inr (.inr ⟨t, action, .inl rfl⟩))⟩
  | none =>
  cases completes : completeSafe s with
  | some t => exact .inl ⟨t, by simp [Machine.react, restarts, pass, w.chooses, action, completes], .inr (.inl completes)⟩
  | none =>
  cases ends : endHold s with
  | some t =>
    exact .inl ⟨t, by simp [Machine.react, restarts, pass, w.chooses, action, completes, ends], .inr (.inr (.inl ends))⟩
  | none =>
  cases report : offerReport s with
  | some t =>
    exact .inl ⟨t, by simp [Machine.react, restarts, pass, w.chooses, action, completes, ends, offer, report],
      .inr (.inr (.inr report))⟩
  | none =>
    exact .inr ⟨by simp [Machine.react, restarts, pass, w.chooses, action, completes, ends, offer, report, w.examined], rfl⟩

end

theorem Prior.kept {s t : State} (h : Prior s t) : Kept s t ∧ Drawn s t := by
  obtain (h | h | ⟨v, action, h⟩) | h | h | h := h
  · exact ⟨restartEvaluation_kept h, restartEvaluation_drawn h⟩
  · exact ⟨makePass_kept h, makePass_drawn h⟩
  · refine ⟨?_, .ofAction action h⟩
    obtain rfl | rfl := h
    exacts [verifyAction_kept action, (verifyAction_kept action).trans (.chose _)]
  · exact ⟨completeSafe_kept h, completeSafe_drawn h⟩
  · exact ⟨endHold_kept h, endHold_drawn h⟩
  · exact ⟨offerReport_kept h, offerReport_drawn h⟩

theorem HeadWaits.next {y : FwdEntry} {l : List FwdEntry} {s t : State} (w : HeadWaits y l s) (h : Prior s t) :
    HeadWaits y l t where
  safe := by
    obtain mode | ⟨-, mode⟩ := h.kept.1.2.mode
    · rw [mode]
      exact w.safe
    · rw [mode]
      rfl
  redrive := (h.nearer w.redrive).2
  idle := h.kept.1.1.agentIdle w.idle
  up := h.kept.1.1.links.2.trans w.up
  queue := (h.kept.1.1.forwardKept (.inl w.up)).1.trans w.queue
  status := w.status
  step := w.step

/-- What the consequences leave alone does not depend on the frames of the Forward Queue, where Port B's link is UP. -/
theorem KeptChain.requeue {s t : State} (up : s.lnk.b.link = .up) (k : KeptChain s t) (q : List FwdEntry) :
    KeptChain { s with fwq.queue := q } { t with fwq.queue := q } :=
  { k with
    forward := List.suffix_rfl
    forwardKept := fun _ => ⟨rfl, (k.forwardKept (.inl up)).2⟩ }

theorem Kept.requeue {s t : State} (up : s.lnk.b.link = .up) (k : Kept s t) (q : List FwdEntry) :
    Kept { s with fwq.queue := q } { t with fwq.queue := q } :=
  have before : KeptMatrix { s with fwq.queue := q } s := .ofSame rfl rfl rfl rfl rfl rfl rfl rfl rfl
  have after : KeptMatrix t { t with fwq.queue := q } := .ofSame rfl rfl rfl rfl rfl rfl rfl rfl rfl
  ⟨k.1.requeue up q, (before.trans k.2).trans after⟩

/-- What becomes of a step frame that waits at the head, and of the rest. -/
structure HeadSkipped (y : FwdEntry) (l : List FwdEntry) (s u : State) : Prop where
  settles : Settles s u
  kept : Kept s { u with fwq.queue := s.fwq.queue }
  queue : u.fwq.queue = y.skipped :: l

theorem HeadWaits.settle_skipped {y : FwdEntry} {l : List FwdEntry} (n : Nat) {s : State} (w : HeadWaits y l s)
    (fuel : s.prior < n) : HeadSkipped y l s (settle n s) := by
  induction n generalizing s with
  | zero => cases fuel
  | succ n ih =>
    obtain ⟨t, reacts, prior⟩ | ⟨reacts, asked⟩ := w.react
    · obtain ⟨kept, drawn⟩ := prior.kept
      have nearer := (prior.nearer w.redrive).1
      obtain ⟨⟨x, before, asked, after⟩, kept', queue⟩ := ih (w.next prior) (by omega)
      have queues : t.fwq.queue = s.fwq.queue := (w.next prior).queue.trans w.queue.symm
      rw [settle, reacts]
      rw [queues] at kept'
      exact ⟨⟨x, .head drawn before, asked, after⟩, kept.trans kept', queue⟩
    · have examined : KeptMatrix s (setHead y.skipped s) := .ofSame rfl rfl rfl rfl rfl rfl rfl rfl rfl
      have drawn : Drawn s (setHead y.skipped s) := .ofSame examined rfl rfl (fun _ => id) id fun _ => .ofSame rfl rfl rfl
      have queue : (setHead y.skipped s).fwq.queue = y.skipped :: l := by simp [setHead, w.queue]
      have still : (setHead y.skipped s).frontStill := .inr (.inr (.inl ⟨_, _, queue, .inr ⟨rfl, w.up⟩⟩))
      have kept : Kept (setHead y.skipped s) (settle n (setHead y.skipped s)) := settle_kept n _ still
      have requeued := Kept.requeue (s := setHead y.skipped s) w.up kept s.fwq.queue
      rw [settle, reacts]
      exact ⟨⟨s, .refl, asked, .head drawn (settle_runs n still)⟩, requeued,
        (kept.1.forwardKept (.inl w.up)).1.trans queue⟩

end Sys2Proof.Machine
end

section
/-! PROOF. A trip acts by the mode (R116 to R119; O39). -/

namespace Sys2Proof.Machine

theorem abandoned_link (s : State) : s.abandoned.lnk.b.link = s.lnk.b.link := by
  unfold State.abandoned abandonForSafe
  split
  · exact endStep_link _ _
  · rfl

/-- The entry of SAFE with a step frame that waits at the head: the frame goes on stamped SKIPPED. -/
theorem safeEntered_waiting {e s : State} (safe : SafeFrom e s) (origin : StepFrom e s) {y : FwdEntry} {l : List FwdEntry}
    (idle : s.mga = .idle) (up : s.lnk.b.link = .up) (queue : s.fwq.queue = y :: l) (status : y.status = .waiting)
    (step : y.frame.isStep = true) (free : ∀ x ∈ e.fwq.queue.head?, x.status ≠ .held) :
    let u := settled (enterSafeMode s)
    u.mdc.trips = s.mdc.trips ∧ SafeEntered e u ∧ u.fwq.queue = y.skipped :: l := by
  intro u
  obtain ⟨c, v, a, f, entered, -⟩ := enterSafeMode_eq s
  have waits : HeadWaits y l (enterSafeMode s) :=
    { safe := by rw [enterSafeMode_mode]; rfl
      redrive := by rw [entered]; exact congrArg Mdc.redrive (abandoned_mdc s)
      idle := by simpa using idle
      up := by rw [entered]; exact (abandoned_link s).trans up
      queue := (enterSafeMode_queue (by simp [queue, status])).trans queue
      status := status
      step := step }
  obtain ⟨settles, kept, skipped⟩ := waits.settle_skipped Config.settleFuel (lt_of_le_of_lt (State.prior_le _) (by decide))
  refine ⟨settles.runs.matrix.requests.1.trans (enterSafeMode_carried s).reading.trips, ?_, skipped⟩
  exact .ofSettles (g := (enterSafeMode s).mga) (o := (enterSafeMode s).rtq.response) safe settles fun holds =>
    Ended.ofQueue free (abandoned_ended (g := (enterSafeMode s).mga) (o := (enterSafeMode s).rtq.response)
      (i := (enterSafeMode s).vfu.inHand) origin kept holds)

/-- A trip in RUN with a step frame that waits at the head. -/
theorem trip_run_waiting {s : State} {y : FwdEntry} {l : List FwdEntry} (idle : s.mga = .idle) (up : s.lnk.b.link = .up)
    (queue : s.fwq.queue = y :: l) (status : y.status = .waiting) (step : y.frame.isStep = true) (time : Nat)
    (rest : List TripCause) :
    let u := settled (enterSafeMode (s.tripped time rest))
    u.mdc.trips = rest ∧ SafeEntered (s.advance time) u ∧ u.fwq.queue = y.skipped :: l := by
  have free : ∀ x ∈ s.fwq.queue.head?, x.status ≠ .held := by simp [queue, status]
  exact safeEntered_waiting (e := s.advance time) (s := s.tripped time rest) (.ofSame rfl rfl rfl rfl)
    ⟨rfl, rfl, rfl, ⟨rfl, rfl⟩, ⟨rfl, rfl⟩, rfl, .inr ⟨rfl, rfl, rfl⟩⟩ idle up queue status step free

/-- A trip in ENTRY: a mismatch fails it, and any other ends it in SAFE. -/
theorem trip_entry {s : State} {o : EntryOrigin} {q : EntryRequest} (entry : s.mdc.mode = .entry o q) (c : TripCause)
    (time : Nat) (rest : List TripCause) :
    ((∃ b, c = .mismatch b) → tripBy c (s.tripped time rest) =
      backTo o (answer (.nak .verifyFailed) (withdrawSequence (s.tripped time rest)))) ∧
    ((∀ b, c ≠ .mismatch b) → tripBy c (s.tripped time rest) =
      enterSafeMode (answer (.nak .state) (withdrawSequence (s.tripped time rest)))) := by
  have mode : (s.tripped time rest).mdc.mode = .entry o q := entry
  unfold tripBy
  rw [mode]
  cases c with
  | mismatch b => exact ⟨fun _ => failEntry_eq _ _, fun other => absurd rfl (other b)⟩
  | vcoilLow | door | safeAll => exact ⟨nofun, fun _ => rfl⟩

/-- Settles O39: each mode by its own case. -/
theorem tripsActByMode : Obligations.TripsActByMode := by
  intro time c rest s running trips
  have outcome : exec (.trip time) s = .next (settled (tripBy c (s.tripped time rest))) :=
    congrArg Host.Outcome.next ((event_running _ running).trans (congrArg settled (tripEffect_eq trips time)))
  have inRun : s.mdc.mode = .run → tripBy c (s.tripped time rest) = enterSafeMode (s.tripped time rest) := fun run => by
    have mode : (s.tripped time rest).mdc.mode = .run := run
    unfold tripBy
    rw [mode]
  refine ⟨fun run firm => ⟨_, outcome, ?_⟩, fun y l run idle _ up queue status step => ⟨_, outcome, ?_⟩,
    fun o q r entry firm serving unheld x hand => ⟨_, outcome, ?_⟩, fun resting still => ⟨_, outcome, ?_⟩⟩
  · rw [inRun run]
    exact trip_run firm time rest
  · rw [inRun run]
    exact trip_run_waiting idle up queue status step time rest
  · obtain ⟨failed, tripped⟩ := trip_entry entry c time rest
    by_cases mismatch : ∃ b, c = .mismatch b
    · have left := EntryLeft.of_answer (s := s.advance time) entry serving hand (.nak .verifyFailed) rest
      rw [failed mismatch]
      cases o with
      | config =>
        obtain ⟨trips', none_, answered, released, config, forced⟩ := left.toConfig firm unheld
        exact ⟨trips', none_, released, fun _ => ⟨answered, fun _ => ⟨config, forced⟩, nofun⟩,
          fun other => absurd mismatch (not_exists.mpr other)⟩
      | safe =>
        obtain ⟨trips', none_, answered, released, entered⟩ := left.toSafe firm unheld
        exact ⟨trips', none_, released, fun _ => ⟨answered, nofun, fun _ => entered⟩,
          fun other => absurd mismatch (not_exists.mpr other)⟩
    · have other := not_exists.mp mismatch
      have left := EntryLeft.of_answer (s := s.advance time) entry serving hand (.nak .state) rest
      obtain ⟨trips', none_, answered, released, entered⟩ := left.toSafe firm unheld
      rw [tripped other]
      exact ⟨trips', none_, released, fun is => absurd is mismatch, fun _ => ⟨answered, entered⟩⟩
  · exact trip_resting resting still c time rest

end Sys2Proof.Machine
end

section
/-! SUPPORT. The bytes of a frame and the frame that bytes spell (R131 to R133, R186): each is read back from the other. -/

namespace Sys2Proof.Machine

theorem xorAll_concat (bs : List Byte) (b : Byte) : xorAll (bs ++ [b]) = xorAll bs ^^^ b := by
  simp [xorAll]

/-- The bytes of a frame with the check byte `c`. -/
def Frame.bytes (f : Frame) (c : Byte) : List Byte := f.body ++ [c]

theorem wireBytes_own (f : Frame) (sense : Sense) : f.wireBytes true sense = f.bytes (f.computedCheck sense) := rfl

theorem beBytes_two (n : Nat) : beBytes 2 n = [BitVec.ofNat 8 (n / 256), BitVec.ofNat 8 n] := by
  simp [beBytes]

theorem bytes_eq (f : Frame) (c : Byte) : f.bytes c = f.kind :: f.dest :: f.src :: BitVec.ofNat 8 (f.tag.toNat / 256) ::
    BitVec.ofNat 8 f.tag.toNat :: BitVec.ofNat 8 f.payload.length :: (f.payload ++ [c]) := by
  simp [Frame.bytes, Frame.body, beBytes_two]

theorem ofNat_toNat_of_le {n : Nat} (fits : n ≤ 240) : (BitVec.ofNat 8 n).toNat = n := by
  rw [BitVec.toNat_ofNat]
  exact Nat.mod_eq_of_lt (by omega)

/-- Two bytes spell the number that they were made from (R186). -/
theorem beNat_halves (t : BitVec 16) : beNat [BitVec.ofNat 8 (t.toNat / 256), BitVec.ofNat 8 t.toNat] = t.toNat := by
  have := t.isLt
  simp [beNat]
  omega

/-- A frame reads back from its bytes (R131, section 12.2). -/
theorem parseFrame_bytes {f : Frame} (fits : f.payload.length ≤ 240) (c : Byte) :
    parseFrame (f.bytes c) = { f with check := c } := by
  have len := ofNat_toNat_of_le fits
  have tag : BitVec.ofNat 16 (beNat [BitVec.ofNat 8 (f.tag.toNat / 256), BitVec.ofNat 8 f.tag.toNat]) = f.tag := by
    rw [beNat_halves, BitVec.ofNat_toNat, BitVec.setWidth_eq]
  rw [bytes_eq]
  simp only [parseFrame, byteAt, fieldAt, List.getD_cons_succ, List.getD_cons_zero, len, List.drop_succ_cons, List.drop_zero,
    List.take_left', List.take_succ_cons, List.take_zero, tag]
  simp [Nat.add_comm 6]

/-- The check of a frame's bytes fails by its check byte or its length alone (R132). -/
theorem frameCheckOk_bytes {f : Frame} (fits : f.payload.length ≤ 240) (sense : Sense) (c : Byte) :
    frameCheckOk sense (f.bytes c) = true ↔ c = f.computedCheck sense := by
  have len := ofNat_toNat_of_le fits
  have fifth : (byteAt (f.bytes c) 5).toNat = f.payload.length := by rw [bytes_eq]; exact len
  have long : (f.bytes c).length = 7 + f.payload.length := by rw [bytes_eq]; simp; omega
  have check : xorAll (f.bytes c) = senseTarget sense ↔ c = f.computedCheck sense := by
    rw [Frame.bytes, xorAll_concat, Frame.computedCheck]
    constructor
    · intro h
      rw [← h, ← BitVec.xor_assoc, BitVec.xor_self, BitVec.zero_xor]
    · intro h
      rw [h, ← BitVec.xor_assoc, BitVec.xor_self, BitVec.zero_xor]
  simp [frameCheckOk, fifth, long, check, Config.maxPayload, fits]

/-- Bytes that pass the check are the bytes of the frame that they spell, whose payload fits (R132). -/
theorem bytes_parseFrame {sense : Sense} {bs : List Byte} (sound : frameCheckOk sense bs = true) :
    (parseFrame bs).bytes (parseFrame bs).check = bs ∧ (parseFrame bs).payload.length ≤ 240 := by
  simp only [frameCheckOk, Bool.and_eq_true, decide_eq_true_eq, beq_iff_eq] at sound
  obtain ⟨-, long, fits, length⟩ := sound
  match bs, long with
  | k :: d :: s :: t1 :: t2 :: n :: rest, _ =>
    change n.toNat ≤ 240 at fits
    have tail : rest.length = n.toNat + 1 := by
      change rest.length + 1 + 1 + 1 + 1 + 1 + 1 = 7 + n.toNat at length
      omega
    have last : rest.take n.toNat ++ [rest.getD n.toNat 0] = rest := by
      rw [List.getD_eq_getElem _ _ (by omega), List.take_append_getElem]
      exact List.take_of_length_le (by omega)
    have payload : (parseFrame (k :: d :: s :: t1 :: t2 :: n :: rest)).payload = rest.take n.toNat := rfl
    have count : (rest.take n.toNat).length = n.toNat := by rw [List.length_take]; omega
    have check : (parseFrame (k :: d :: s :: t1 :: t2 :: n :: rest)).check = rest.getD n.toNat 0 := by
      simp [parseFrame, byteAt, Nat.add_comm 6]
    have tag : (parseFrame (k :: d :: s :: t1 :: t2 :: n :: rest)).tag.toNat = 256 * t1.toNat + t2.toNat := by
      have := t1.isLt
      have := t2.isLt
      simp [parseFrame, fieldAt, beNat]
      omega
    have high : BitVec.ofNat 8 ((256 * t1.toNat + t2.toNat) / 256) = t1 := by
      apply BitVec.eq_of_toNat_eq
      have := t1.isLt
      have := t2.isLt
      rw [BitVec.toNat_ofNat]
      omega
    have low : BitVec.ofNat 8 (256 * t1.toNat + t2.toNat) = t2 := by
      apply BitVec.eq_of_toNat_eq
      have := t2.isLt
      rw [BitVec.toNat_ofNat]
      omega
    refine ⟨?_, by rw [payload, count]; exact fits⟩
    rw [bytes_eq, payload, check, tag, high, low, last, count, BitVec.ofNat_toNat, BitVec.setWidth_eq]
    rfl

/-- A frame goes on with the very bytes it came with (R133). -/
theorem wireBytes_parseFrame {sense : Sense} {bs : List Byte} (sound : frameCheckOk sense bs = true) (other : Sense) :
    (parseFrame bs).wireBytes false other = bs :=
  (bytes_parseFrame sound).1

end Sys2Proof.Machine
end

section
/-! PROOF. Frames of the part pass the check, and a stamp changes the chain status alone (R59, R132, R133, R186; O57). -/

namespace Sys2Proof.Machine

/-- A stamp raises the chain status of a step frame, and changes no other field (R59). -/
theorem stamp_step {f : Frame} (step : f.isStep = true) {n : Nat} (small : n ≤ 4) :
    (f.stamp n).status.toNat = max f.status.toNat n ∧ (f.stamp n).stepIndex = f.stepIndex ∧
      (f.stamp n).preempt = f.preempt ∧ (f.stamp n).quiet = f.quiet ∧ (f.stamp n).freq = f.freq ∧ (f.stamp n).tag = f.tag := by
  obtain ⟨status, index, tag⟩ := stamp_fields step n
  simp only [Frame.isStep, Bool.and_eq_true, beq_iff_eq] at step
  obtain ⟨-, five⟩ := step
  have flags : byteAt (f.stamp n).payload 1 = byteAt f.payload 1 := by
    simp [Frame.stamp, byteAt, List.getD_eq_getElem?_getD]
  have freq : ((f.stamp n).payload.drop 2).take 2 = (f.payload.drop 2).take 2 := by
    obtain ⟨a, b, c, d, e, h⟩ : ∃ a b c d e, f.payload = [a, b, c, d, e] := by
      match f.payload, five with
      | [a, b, c, d, e], _ => exact ⟨a, b, c, d, e, rfl⟩
    simp [Frame.stamp, h]
  refine ⟨?_, index, ?_, ?_, ?_, tag⟩
  · have := f.status.isLt
    rw [status, BitVec.toNat_ofNat]
    exact Nat.mod_eq_of_lt (by omega)
  · rw [Frame.preempt, flags, Frame.preempt]
  · rw [Frame.quiet, flags, Frame.quiet]
  · rw [Frame.freq, fieldAt, freq, Frame.freq, fieldAt]

/-- A stamp that does not raise the status leaves the frame as it is. -/
theorem stamp_idle {f : Frame} (step : f.isStep = true) {n : Nat} (below : n ≤ f.status.toNat) : f.stamp n = f := by
  simp only [Frame.isStep, Bool.and_eq_true, beq_iff_eq] at step
  obtain ⟨-, five⟩ := step
  have fifth : f.payload[4] = f.status := by
    rw [Frame.status, byteAt, List.getD_eq_getElem _ _ (by omega)]
  have same : f.payload.set 4 f.status = f.payload := by rw [← fifth, List.set_getElem_self]
  rw [Frame.stamp, max_eq_left below, BitVec.ofNat_toNat, BitVec.setWidth_eq, same]

/-- Settles O57: a frame and its bytes are read back from one another, and the stamp of a step frame writes its fifth payload byte. -/
theorem ownFramesPassTheCheck : Obligations.OwnFramesPassTheCheck := by
  refine ⟨?_, ?_⟩
  · intro l kind tag payload sense fits f
    have fits' : f.payload.length ≤ 240 := fits
    rw [wireBytes_own]
    exact ⟨(frameCheckOk_bytes fits' sense _).mpr rfl, parseFrame_bytes fits' _⟩
  · intro bs sense n small sound step f g
    obtain ⟨bytes, fits⟩ := bytes_parseFrame sound
    obtain ⟨status, index, preempt, quiet, freq, tag⟩ := stamp_step step small
    have fits' : g.payload.length ≤ 240 := by
      change ((parseFrame bs).payload.set 4 _).length ≤ 240
      rwa [List.length_set]
    refine ⟨?_, status, index, preempt, quiet, freq, tag, fun below => ?_⟩
    · rw [wireBytes_own]
      exact (frameCheckOk_bytes fits' sense _).mpr rfl
    · have check : f.check = f.computedCheck sense := (frameCheckOk_bytes fits sense _).mp (bytes.symm ▸ sound)
      have same : g = f := stamp_idle step below
      rw [same, wireBytes_own, ← check]
      exact bytes

end Sys2Proof.Machine
end

section
/-! PROOF. The reset events put every field at its reset value (R134, R178; O3). -/

namespace Sys2Proof.Machine

theorem restart_resetValues (p : Pins) (time : Nat) (s : State) : ResetValues p (restart p time s) where
  blocks := initial_atReset p (max s.now time) s.choices s.pending
  released := rfl
  straps := ⟨rfl, rfl, rfl⟩
  links := ⟨rfl, rfl⟩
  supply := rfl
  levels := rfl
  latched := rfl
  reading := rfl

/-- Settles O3: both events leave the initial state of the pins that they sample. -/
theorem resetEventsSetEveryValue : Obligations.ResetEventsSetEveryValue := by
  refine ⟨fun time p s => ?_, fun time p s held => ?_⟩
  · exact ⟨restart p time s, rfl, restart_resetValues p time s, rfl, rfl⟩
  · exact ⟨restart p time s, congrArg Host.Outcome.next (if_pos held), restart_resetValues p time s, rfl, rfl⟩

end Sys2Proof.Machine
end

section
/-! SUPPORT. The admission pass, outbox by outbox (R145, R166): what each takes while the free entries exceed the hold margin. -/

namespace Sys2Proof.Machine

/-- The free entries of the Return Queue above the hold margin (R134, R145). -/
def State.room (s : State) : Nat := 24 - s.rtq.queue.length - marginEntries s.lnk.margin

/-- The entry of a frame that the part has built. -/
def ownEntry (f : Frame) : RetEntry := { frame := f, own := true }

theorem outboxRoom_iff {s : State} : s.outboxRoom = true ↔ 0 < s.room := by
  unfold State.outboxRoom State.retFree State.room Config.retCapacity
  rw [decide_eq_true_iff]
  omega

theorem outboxRoom_eq_false_iff {s : State} : s.outboxRoom = false ↔ s.room = 0 := by
  rw [← Bool.not_eq_true, outboxRoom_iff]
  omega

/-- The Return Queue behind frames of the part's own, as many as it has room for. -/
def State.joined (s : State) (l : List Frame) : List RetEntry := s.rtq.queue ++ (l.take s.room).map ownEntry

/-- From `s` to `t` the frames `l` of an outbox have joined the Return Queue, as many as it has room for. -/
structure Joined (s : State) (l : List Frame) (t : State) : Prop where
  queue : t.rtq.queue = s.joined l
  straps : t.lnk.margin = s.lnk.margin ∧ t.lnk.addr = s.lnk.addr
  held : t.rtq.responseHeld = s.rtq.responseHeld

theorem Joined.room {s t : State} {l : List Frame} (h : Joined s l t) : t.room = s.room - l.length := by
  unfold State.room
  rw [h.queue, h.straps.1, State.joined]
  simp only [List.length_append, List.length_map, List.length_take, State.room]
  omega

theorem Joined.nothing (s : State) : Joined s [] s := ⟨by simp [State.joined], ⟨rfl, rfl⟩, rfl⟩

theorem Joined.full {s : State} (full : ¬0 < s.room) (l : List Frame) : Joined s l s :=
  ⟨by simp [State.joined, Nat.eq_zero_of_not_pos full], ⟨rfl, rfl⟩, rfl⟩

/-- An outbox that offers no frame, or finds no room, passes none; any other passes its frame. -/
theorem Joined.ofOffer {s t : State} {o : Option Frame} (empty : o = none → t = s) (full : ¬0 < s.room → t = s)
    (passes : ∀ f, o = some f → 0 < s.room → ∃ r : Rtq, r.queue = s.rtq.queue ∧ r.responseHeld = s.rtq.responseHeld ∧
      t = appendRet f true { s with rtq := r }) : Joined s o.toList t := by
  by_cases room : 0 < s.room
  · cases o with
    | none => exact empty rfl ▸ .nothing s
    | some f =>
      obtain ⟨r, queue, held, h⟩ := passes f rfl room
      obtain ⟨n, more⟩ := Nat.exists_eq_succ_of_ne_zero room.ne'
      rw [h]
      exact ⟨by simp [State.joined, more, queue, ownEntry], by simp, by simp [held]⟩
  · rw [full room]
    exact .full room _

/-- What the ALERT and the RESPONSE outbox offer to an admission pass; a held acknowledgement is passed over (R145, R166). -/
def State.alertOffer (s : State) : Option Frame := s.rtq.alert.map (alertFrame s.lnk)
def State.responseOffer (s : State) : Option Frame := if s.rtq.responseHeld = true then none else s.rtq.response

theorem passAlert_joined (s : State) : Joined s s.alertOffer.toList (passAlert s) ∧
    (passAlert s).rtq.alert = (if 0 < s.room then none else s.rtq.alert) ∧
    (passAlert s).rtq.response = s.rtq.response ∧ (passAlert s).rtq.echo = s.rtq.echo ∧
    (passAlert s).rtq.report = s.rtq.report := by
  refine ⟨.ofOffer (fun empty => ?_) (fun full => ?_) fun f offer room => ?_, ?_, by simp, by simp, by simp⟩
  · have none_ : s.rtq.alert = none := by simpa [State.alertOffer] using empty
    simp [passAlert, none_]
  · unfold passAlert
    split <;> simp [outboxRoom_iff, full]
  · obtain ⟨a, waits, rfl⟩ := Option.map_eq_some_iff.mp offer
    exact ⟨{ s.rtq with alert := none }, rfl, rfl, by simp [passAlert, waits, outboxRoom_iff, room]⟩
  · cases waits : s.rtq.alert <;> by_cases room : 0 < s.room <;> simp [passAlert, waits, outboxRoom_iff, room]

theorem passResponse_joined (s : State) : Joined s s.responseOffer.toList (passResponse s) ∧
    (passResponse s).rtq.response = (if 0 < s.room ∧ s.rtq.responseHeld = false then none else s.rtq.response) ∧
    (passResponse s).rtq.alert = s.rtq.alert ∧ (passResponse s).rtq.echo = s.rtq.echo ∧
    (passResponse s).rtq.report = s.rtq.report := by
  refine ⟨.ofOffer (fun empty => ?_) (fun full => ?_) fun f offer room => ?_, ?_, by simp, by simp, by simp⟩
  · unfold passResponse
    split
    · next f waits =>
      have held : s.rtq.responseHeld = true := by simpa [State.responseOffer, waits] using empty
      simp [held]
    · rfl
  · unfold passResponse
    split <;> simp [outboxRoom_iff, full]
  · obtain ⟨held, waits⟩ : s.rtq.responseHeld = false ∧ s.rtq.response = some f := by simpa [State.responseOffer] using offer
    exact ⟨{ s.rtq with response := none }, rfl, rfl, by simp [passResponse, waits, held, outboxRoom_iff, room]⟩
  · cases waits : s.rtq.response <;> cases held : s.rtq.responseHeld <;> by_cases room : 0 < s.room <;>
      simp [passResponse, waits, held, outboxRoom_iff, room]

theorem passEcho_joined (s : State) : Joined s s.rtq.echo.toList (passEcho s) ∧
    (passEcho s).rtq.echo = (if 0 < s.room then none else s.rtq.echo) ∧
    (passEcho s).rtq.alert = s.rtq.alert ∧ (passEcho s).rtq.response = s.rtq.response ∧
    (passEcho s).rtq.report = s.rtq.report := by
  refine ⟨.ofOffer (fun empty => ?_) (fun full => ?_) fun f waits room => ?_, ?_, by simp, by simp, by simp⟩
  · simp [passEcho, empty]
  · unfold passEcho
    split <;> simp [outboxRoom_iff, full]
  · exact ⟨{ s.rtq with echo := none }, rfl, rfl, by simp [passEcho, waits, outboxRoom_iff, room]⟩
  · cases waits : s.rtq.echo <;> by_cases room : 0 < s.room <;> simp [passEcho, waits, outboxRoom_iff, room]

theorem passReport_joined (s : State) : Joined s s.rtq.report.toList (passReport s) ∧
    (passReport s).rtq.report = (if 0 < s.room then none else s.rtq.report) ∧
    (passReport s).rtq.alert = s.rtq.alert ∧ (passReport s).rtq.response = s.rtq.response ∧
    (passReport s).rtq.echo = s.rtq.echo := by
  refine ⟨.ofOffer (fun empty => ?_) (fun full => ?_) fun f waits room => ?_, ?_, by simp, by simp, by simp⟩
  · simp [passReport, empty]
  · unfold passReport
    split <;> simp [outboxRoom_iff, full]
  · exact ⟨{ s.rtq with report := none }, rfl, rfl, by simp [passReport, waits, outboxRoom_iff, room]⟩
  · cases waits : s.rtq.report <;> by_cases room : 0 < s.room <;> simp [passReport, waits, outboxRoom_iff, room]

theorem Joined.trans {s t u : State} {l m : List Frame} (h : Joined s l t) (g : Joined t m u) : Joined s (l ++ m) u where
  queue := by
    rw [g.queue, State.joined, h.room, h.queue, State.joined, State.joined, List.take_append, List.map_append,
      List.append_assoc]
  straps := ⟨g.straps.1.trans h.straps.1, g.straps.2.trans h.straps.2⟩
  held := g.held.trans h.held

/-- What an admission pass leaves of the Return Queue and the outboxes, from the state `s` to the state `t`. -/
structure Admitted (s t : State) : Prop where
  joined : Joined s (s.alertOffer.toList ++ s.responseOffer.toList ++ s.rtq.echo.toList ++ s.rtq.report.toList) t
  alert : t.rtq.alert = (if 0 < s.room then none else s.rtq.alert)
  response : t.rtq.response =
    (if s.alertOffer.toList.length < s.room ∧ s.rtq.responseHeld = false then none else s.rtq.response)
  echo : t.rtq.echo =
    (if s.alertOffer.toList.length + s.responseOffer.toList.length < s.room then none else s.rtq.echo)
  report : t.rtq.report =
    (if s.alertOffer.toList.length + s.responseOffer.toList.length + s.rtq.echo.toList.length < s.room then none
      else s.rtq.report)

/-- The pass takes the outboxes one after another. -/
theorem passes_admitted (s : State) : Admitted s (passReport (passEcho (passResponse (passAlert s)))) := by
  obtain ⟨alerts, alert, a1, a2, a3⟩ := passAlert_joined s
  obtain ⟨responses, response, b1, b2, b3⟩ := passResponse_joined (passAlert s)
  obtain ⟨echoes, echo, c1, c2, c3⟩ := passEcho_joined (passResponse (passAlert s))
  obtain ⟨reports, report, d1, d2, d3⟩ := passReport_joined (passEcho (passResponse (passAlert s)))
  have offer : (passAlert s).responseOffer = s.responseOffer := by
    rw [State.responseOffer, alerts.held, a1, State.responseOffer]
  rw [offer] at responses
  rw [b2, a2] at echoes
  rw [c3, b3, a3] at reports
  have room2 := alerts.room
  have room3 := (alerts.trans responses).room
  have room4 := ((alerts.trans responses).trans echoes).room
  rw [List.length_append] at room3
  rw [List.length_append, List.length_append] at room4
  refine ⟨((alerts.trans responses).trans echoes).trans reports, ?_, ?_, ?_, ?_⟩
  · rw [d1, c1, b1, alert]
  · rw [d2, c2, response, room2, alerts.held, a1]
    simp only [Nat.sub_pos_iff_lt]
  · rw [d3, echo, room3, b2, a2]
    simp only [Nat.sub_pos_iff_lt]
  · rw [report, room4, c3, b3, a3]
    simp only [Nat.sub_pos_iff_lt]

/-- An admission pass leaves what `Admitted` says, whether or not there is anything for it to do. -/
theorem admissionPass_admitted (s : State) : Admitted s ((admissionPass s).getD s) := by
  unfold admissionPass
  split
  · exact passes_admitted s
  · next idle =>
    have nothing : s.room = 0 ∨
        (s.rtq.alert = none ∧ s.responseOffer = none ∧ s.rtq.echo = none ∧ s.rtq.report = none) := by
      by_cases room : 0 < s.room
      · refine .inr ?_
        have ready := idle
        simp only [State.outboxReady, outboxRoom_iff.mpr room, Bool.true_and, Bool.not_eq_true, Bool.or_eq_false_iff,
          Bool.and_eq_false_iff, Bool.not_eq_false', Option.isSome_eq_false_iff, Option.isNone_iff_eq_none] at ready
        obtain ⟨⟨⟨alert, response⟩, echo⟩, report⟩ := ready
        exact ⟨alert, by rcases response with none_ | held <;> simp [State.responseOffer, *], echo, report⟩
      · exact .inl (Nat.eq_zero_of_not_pos room)
    rw [Option.getD_none]
    rcases nothing with full | ⟨alert, response, echo, report⟩
    · exact ⟨.full (by omega) _, by simp [full], by simp [full], by simp [full], by simp [full]⟩
    · have unoffered : s.rtq.responseHeld = false → s.rtq.response = none := by
        intro unheld
        simpa [State.responseOffer, unheld] using response
      refine ⟨by simpa [State.alertOffer, alert, response, echo, report] using Joined.nothing s, by simp [alert], ?_,
        by simp [echo], by simp [report]⟩
      split
      · next h => exact unoffered h.2
      · rfl

end Sys2Proof.Machine
end

section
/-! PROOF. The marks about a queue follow its free entries, and admission passes leave the hold margin free (R130, R134, R145, R148,
R166; O15). -/

namespace Sys2Proof.Machine

/-- The mark that a queue calls for, by its free entries and the mark last sent (R148). -/
theorem nextMark_eq_pause {last : Mark} {free margin : Nat}
    (h : (last = .go ∧ free ≤ margin) ∨ (last = .pause ∧ free < 2 * margin)) : nextMark last free margin = .pause := by
  obtain ⟨rfl, few⟩ | ⟨rfl, few⟩ := h
  · simp [nextMark, few]
  · simp [nextMark, few]

theorem nextMark_eq_go {last : Mark} {free margin : Nat}
    (h : (last = .go ∧ margin < free) ∨ (last = .pause ∧ 2 * margin ≤ free)) : nextMark last free margin = .go := by
  obtain ⟨rfl, many⟩ | ⟨rfl, many⟩ := h
  · simp [nextMark, many]
  · simp [nextMark, many]

/-- A mark that changes goes out at once where the transmitter is idle (R130). -/
theorem sendMark_idle {x : PortState} (up : x.link = .up) (idle : x.tx = none) (m : Mark) :
    x.sendMark m = { x with wire := .mark m :: x.wire } := by
  simp [PortState.sendMark, up, idle]

theorem compareFwd_same {s : State} (same : (compareFwd s).lnk.sentFwd = s.lnk.sentFwd) : compareFwd s = s := by
  rw [compareFwd_sentFwd] at same
  simp [compareFwd, same]

theorem compareRet_same {s : State} (same : (compareRet s).lnk.sentRet = s.lnk.sentRet) : compareRet s = s := by
  rw [compareRet_sentRet] at same
  simp [compareRet, same]

theorem compareFwd_sends {s : State} (changed : (compareFwd s).lnk.sentFwd ≠ s.lnk.sentFwd) (up : s.lnk.a.link = .up)
    (idle : s.lnk.a.tx = none) : (compareFwd s).lnk.a.wire = .mark (compareFwd s).lnk.sentFwd :: s.lnk.a.wire := by
  rw [compareFwd_sentFwd] at changed ⊢
  simp [compareFwd, changed, sendMark_idle up idle]

theorem compareRet_sends {s : State} (changed : (compareRet s).lnk.sentRet ≠ s.lnk.sentRet) (up : s.lnk.b.link = .up)
    (idle : s.lnk.b.tx = none) : (compareRet s).lnk.b.wire = .mark (compareRet s).lnk.sentRet :: s.lnk.b.wire := by
  rw [compareRet_sentRet] at changed ⊢
  simp [compareRet, changed, sendMark_idle up idle]

/-- Settles O15: the comparisons by the mark that each queue calls for, and the pass outbox by outbox. -/
theorem holdMarginGovernsTheQueues : Obligations.HoldMarginGovernsTheQueues := by
  refine ⟨fun s => ⟨fun few => ?_, fun many => ?_, compareFwd_same, compareFwd_sends⟩,
    fun s => ⟨fun few => ?_, fun many => ?_, compareRet_same, compareRet_sends⟩, fun s => ?_⟩
  · exact (compareFwd_sentFwd s).trans (nextMark_eq_pause few)
  · exact (compareFwd_sentFwd s).trans (nextMark_eq_go many)
  · exact (compareRet_sentRet s).trans (nextMark_eq_pause few)
  · exact (compareRet_sentRet s).trans (nextMark_eq_go many)
  · intro alert response echo room t
    have admitted := admissionPass_admitted s
    have offer : s.responseOffer.toList = response := by
      unfold State.responseOffer response
      split <;> rfl
    obtain ⟨joined, alert', response', echo', report'⟩ := admitted
    rw [offer] at joined echo' report'
    exact ⟨joined.queue, joined.held, alert', response', echo', report'⟩

end Sys2Proof.Machine
end

section
/-! SUPPORT. Drawing the consequences of an event comes to an end: each consequence leaves less to do, and an event that examines no frame
has less to do than the fuel of `settled` allows (assumption log 6). -/

namespace Sys2Proof.Machine

/-! ## What a consequence leaves on the chain side -/

/-- The chain side stands, but for a waiting ALERT frame. -/
structure ChainBeside (s t : State) : Prop where
  lnk : t.lnk = s.lnk
  fwq : t.fwq = s.fwq
  rtq : t.rtq = { s.rtq with alert := t.rtq.alert }

theorem launchPass_beside (s : State) : ChainBeside s (launchPass s) := by
  obtain ⟨-, u, passed, h⟩ := launchPass_after s
  have beside : ChainBeside s u := ⟨passed.lnk, passed.fwq, passed.outbox⟩
  obtain h | h := h <;> rw [h]
  exacts [beside, ⟨beside.lnk, beside.fwq, beside.rtq⟩]

theorem ChainBeside.ofAction {s t v : State} (action : verifyAction s = some v) (h : t = v ∨ t = v.chose) :
    ChainBeside s t := by
  obtain ⟨-, a, rfl⟩ := verifyAction_eq action
  obtain rfl | rfl := h <;> exact ⟨rfl, rfl, rfl⟩

theorem Early.beside {s t : State} (h : Early s t) : ChainBeside s t := by
  obtain h | h | ⟨v, action, h⟩ := h
  · rw [restartEvaluation_eq h]
    exact ⟨rfl, rfl, rfl⟩
  · obtain ⟨-, rfl | rfl | ⟨v, action, rfl⟩⟩ := makePass_cases h
    · exact launchPass_beside s
    · have beside := launchPass_beside s.chose
      exact ⟨beside.lnk, beside.fwq, beside.rtq⟩
    · exact .ofAction action (.inr rfl)
  · exact .ofAction action h

/-! ## What is left to do -/

/-- How many outboxes hold a frame. -/
def Rtq.waiting (r : Rtq) : Nat :=
  r.alert.isSome.toNat + r.response.isSome.toNat + r.echo.isSome.toNat + r.report.isSome.toNat

/-- How many heads the chain end can still deal with: the released frames before the first other one (R141, R142). -/
def State.endings (s : State) : Nat :=
  if s.lnk.b.link = .down then (s.fwq.queue.takeWhile (·.status = .released)).length else 0

/-- An answer waits for the RESPONSE outbox (R151). -/
def Mga.owes : Mga → Bool
  | .answerWait _ => true
  | _ => false

/-- What an event may still have to do: before the admission pass, in it, at the chain end, and at the transmitters. A launch pass may
fill the ALERT outbox, a deal at the chain end the ECHO outbox, an offer the RESPONSE or the REPORT outbox, and a safe drive that is
formed afresh makes a pass due, so that each of these weighs more than what it brings. -/
def State.toDo (s : State) : Nat :=
  2 * s.early + s.rtq.waiting + 2 * s.mga.owes.toNat + 2 * (s.ste.st == .reportWait).toNat + s.rtq.responseHeld.toNat
    + (s.mdc.mode == .safe .driving).toNat + 5 * s.mdc.redrive.toNat + 2 * s.endings
    + s.lnk.a.tx.isNone.toNat + s.lnk.b.tx.isNone.toNat

theorem Rtq.waiting_le (r : Rtq) : r.waiting ≤ 4 := by
  have := Bool.toNat_le r.alert.isSome
  have := Bool.toNat_le r.response.isSome
  have := Bool.toNat_le r.echo.isSome
  have := Bool.toNat_le r.report.isSome
  unfold Rtq.waiting
  omega

theorem State.toDo_le (s : State) : s.toDo ≤ 27 + 2 * s.endings := by
  have := s.early_le
  have := s.rtq.waiting_le
  have := Bool.toNat_le s.mga.owes
  have := Bool.toNat_le (s.ste.st == .reportWait)
  have := Bool.toNat_le s.rtq.responseHeld
  have := Bool.toNat_le (s.mdc.mode == .safe .driving)
  have := Bool.toNat_le s.mdc.redrive
  have := Bool.toNat_le s.lnk.a.tx.isNone
  have := Bool.toNat_le s.lnk.b.tx.isNone
  unfold State.toDo
  omega

theorem Early.toDo {s t : State} (h : Early s t) : t.toDo < s.toDo := by
  obtain ⟨nearer, mdc, mga, st, held⟩ := h.nearer
  obtain ⟨lnk, fwq, rtq⟩ := h.beside
  have waiting : t.rtq.waiting ≤ s.rtq.waiting + 1 := by
    have := Bool.toNat_le t.rtq.alert.isSome
    rw [rtq]
    unfold Rtq.waiting
    dsimp only
    omega
  unfold State.toDo State.endings
  rw [mdc, mga, st, held, lnk, fwq]
  omega

theorem completeSafe_toDo {s t : State} (h : completeSafe s = some t) : t.toDo < s.toDo := by
  obtain ⟨driving, ⟨marked, rfl⟩ | ⟨-, rfl⟩⟩ := completeSafe_cases h
  · obtain ⟨t, formed⟩ : ∃ t, t = formSafeDrive { s with mdc.redrive := false } := ⟨_, rfl⟩
    rw [← formed]
    obtain ⟨x, d, o, drive⟩ := formSafeDrive_eq { s with mdc.redrive := false }
    rw [drive] at formed
    have rest : t.rev = s.rev ∧ t.tbs = s.tbs ∧ t.csd.pulses = s.csd.pulses ∧ t.csd.recorded = s.csd.recorded ∧ t.vfu = s.vfu ∧
        t.rtq = s.rtq ∧ t.mga = s.mga ∧ t.ste = s.ste ∧ t.mdc.mode = s.mdc.mode ∧ t.lnk = s.lnk ∧ t.fwq = s.fwq ∧
        t.mdc.redrive = false := by
      rw [formed]
      exact ⟨rfl, rfl, rfl, rfl, rfl, rfl, rfl, rfl, rfl, rfl, rfl, rfl⟩
    obtain ⟨rev, tbs, pulses, recorded, vfu, rtq, mga, ste, mode, lnk, fwq, unmarked⟩ := rest
    have restarts : (restartEvaluation t).isSome = (restartEvaluation s).isSome := by
      have same : restartEvaluation t = none ↔ restartEvaluation s = none := by
        unfold restartEvaluation Evaluation.outdated possible
        rw [rev, tbs, pulses, recorded]
        cases s.rev.evaluation <;> simp
      rw [Bool.eq_iff_iff, Option.isSome_iff_ne_none, Option.isSome_iff_ne_none]
      exact not_congr same
    have passing : t.early ≤ s.early + 2 := by
      unfold State.early
      rw [restarts, vfu]
      repeat' split
      all_goals omega
    unfold State.toDo State.endings
    rw [rtq, mga, ste, mode, lnk, fwq, unmarked, marked]
    simp only [Bool.toNat_true, Bool.toNat_false]
    omega
  · have early : (setMode (.safe .held) s).early = s.early := early_congr rfl rfl rfl rfl
    have waiting : (setMode (.safe .held) s).rtq.waiting = s.rtq.waiting := by
      simp [Rtq.waiting, setMode, refreshAlert]
    have mode : (setMode (.safe .held) s).mdc.mode = .safe .held := rfl
    unfold State.toDo State.endings
    rw [early, waiting, mode, driving]
    simp

theorem endHold_toDo {s t : State} (h : endHold s = some t) : t.toDo < s.toDo := by
  unfold endHold at h
  split at h <;> cases h
  next ends =>
    obtain ⟨held, -⟩ := Bool.and_eq_true_iff.mp ends
    have early : State.early { s with rtq.responseHeld := false, mga := .idle } = s.early := early_congr rfl rfl rfl rfl
    unfold State.toDo State.endings
    rw [early]
    simp only [held, Bool.toNat_true, Bool.toNat_false, Mga.owes, Rtq.waiting]
    omega

theorem offerAnswer_toDo {s t : State} (h : offerAnswer s = some t) : t.toDo < s.toDo := by
  unfold offerAnswer at h
  split at h <;> cases h
  next f owes empty =>
    have early : State.early { s with rtq.response := some f, mga := .idle } = s.early := early_congr rfl rfl rfl rfl
    unfold State.toDo State.endings
    rw [early]
    simp only [owes, empty, Mga.owes, Rtq.waiting, Option.isSome_some, Option.isSome_none, Bool.toNat_true, Bool.toNat_false]
    omega

theorem offerReport_toDo {s t : State} (h : offerReport s = some t) : t.toDo < s.toDo := by
  have same := offerReport_frame s h
  have early : t.early = s.early := early_congr (by simp [same]) (by simp [same]) (by simp [same]) (offerReport_activity h)
  unfold offerReport at h
  split at h
  · next f waits pending empty =>
    cases h
    unfold State.toDo State.endings
    rw [early]
    have resting : (EngineState.idle == EngineState.reportWait) = false := rfl
    simp [waits, empty, Rtq.waiting, resting]
    omega
  · cases h

theorem dealAtChainEnd_toDo {s t : State} (h : dealAtChainEnd s = some t) : t.toDo < s.toDo := by
  have same := dealAtChainEnd_frame s h
  have early : t.early = s.early := early_congr (by simp [same]) (by simp [same]) (by simp [same]) (by simp [same])
  have waiting : t.rtq.waiting ≤ s.rtq.waiting + 1 := by
    have := Bool.toNat_le t.rtq.echo.isSome
    simp only [Rtq.waiting, same]
    omega
  have endings : t.endings + 1 = s.endings := by
    unfold dealAtChainEnd at h
    split at h
    · next x l down head =>
      split at h
      · next released =>
        have queue : t.fwq.queue = l := by
          repeat' split at h
          all_goals cases h
          all_goals simp [head]
        have down' : t.lnk.b.link = .down := by simp [same, down]
        simp [State.endings, down, down', queue, head, released]
      · cases h
    · cases h
  unfold State.toDo
  rw [early]
  simp only [same]
  omega

theorem length_toList_option {α : Type} (o : Option α) : o.toList.length = o.isSome.toNat := by
  cases o <;> rfl

theorem isSome_taken {α : Type} (c : Prop) [Decidable c] (o : Option α) :
    (if c then none else o).isSome.toNat = if c then 0 else o.isSome.toNat := by
  split <;> rfl

/-- A pass that finds room and a frame to take leaves fewer frames in the outboxes. -/
theorem Admitted.waiting {s t : State} (h : Admitted s t) (ready : s.outboxReady = true) :
    t.rtq.waiting < s.rtq.waiting := by
  obtain ⟨room, ready⟩ := Bool.and_eq_true_iff.mp ready
  have room := outboxRoom_iff.mp room
  have alerts : s.alertOffer.toList.length = s.rtq.alert.isSome.toNat := by
    rw [length_toList_option, State.alertOffer, Option.isSome_map]
  have responses : s.responseOffer.toList.length = if s.rtq.responseHeld = true then 0 else s.rtq.response.isSome.toNat := by
    rw [length_toList_option, State.responseOffer, isSome_taken]
  have pos : ∀ b : Bool, 0 < b.toNat ↔ b = true := by decide
  have offered : 0 < s.rtq.alert.isSome.toNat ∨ (s.rtq.responseHeld = false ∧ 0 < s.rtq.response.isSome.toNat) ∨
      0 < s.rtq.echo.isSome.toNat ∨ 0 < s.rtq.report.isSome.toNat := by
    simp only [Bool.or_eq_true, Bool.and_eq_true, Bool.not_eq_true'] at ready
    simp only [pos, or_assoc, and_comm] at ready ⊢
    exact ready
  have held : s.rtq.responseHeld = true ∨ s.rtq.responseHeld = false := (Bool.eq_false_or_eq_true _)
  unfold Rtq.waiting
  rw [h.alert, h.response, h.echo, h.report, alerts, responses, length_toList_option, isSome_taken, isSome_taken, isSome_taken,
    isSome_taken, if_pos room]
  rcases held with held | held <;> simp only [held, if_true, Bool.false_eq_true, if_false, and_true, and_false, reduceCtorEq] <;>
    (repeat' split) <;> simp_all <;> omega

/-- An admission pass empties an outbox (R145). -/
theorem admissionPass_toDo {s t : State} (h : admissionPass s = some t) : t.toDo < s.toDo := by
  have same := admissionPass_frame s h
  have early : t.early = s.early := early_congr (by simp [same]) (by simp [same]) (by simp [same]) (by simp [same])
  have waiting : t.rtq.waiting < s.rtq.waiting := by
    have admitted := admissionPass_admitted s
    rw [h, Option.getD_some] at admitted
    refine admitted.waiting ?_
    unfold admissionPass at h
    split at h
    · assumption
    · cases h
  unfold State.toDo State.endings
  rw [early]
  simp only [same]
  omega

theorem startTxB_toDo {s t : State} (h : startTxB s = some t) : t.toDo < s.toDo := by
  have same := startTxB_frame s h
  have early : t.early = s.early := early_congr (by simp [same]) (by simp [same]) (by simp [same]) (by simp [same])
  have started : s.lnk.b.tx = none ∧ t.lnk.b.tx.isNone = false := by
    unfold startTxB at h
    split at h
    · next ready =>
      refine ⟨ready.2, ?_⟩
      repeat' split at h
      all_goals cases h
      all_goals rfl
    · cases h
  unfold State.toDo State.endings
  rw [early]
  simp only [same, started, Option.isNone_none, Bool.toNat_true, Bool.toNat_false]
  omega

theorem startTxA_toDo {s t : State} (h : startTxA s = some t) : t.toDo < s.toDo := by
  have same := startTxA_frame s h
  have early : t.early = s.early := early_congr (by simp [same]) (by simp [same]) (by simp [same]) (by simp [same])
  have started : s.lnk.a.tx = none ∧ t.lnk.a.tx.isNone = false := by
    unfold startTxA at h
    split at h
    · next ready =>
      refine ⟨ready.2.1, ?_⟩
      split at h <;> cases h
      rfl
    · cases h
  unfold State.toDo State.endings
  rw [early]
  simp only [same, started, Option.isNone_none, Bool.toNat_true, Bool.toNat_false]
  omega

/-! ## All of them -/

/-- Each consequence of an event that examines no frame leaves less to do. -/
theorem react_toDo {s t : State} (q : s.frontStill) (h : react s = some t) : t.toDo < s.toDo := by
  obtain h | h | h | h | h | h | h | h | h | h | h := react_cases h
  · exact Early.toDo (.inl h)
  · exact Early.toDo (.inr (.inl h))
  · exact Early.toDo (.inr (.inr ⟨t, chooseVerify_of_still q ▸ h, .inl rfl⟩))
  · exact completeSafe_toDo h
  · exact endHold_toDo h
  · exact offerAnswer_toDo h
  · exact offerReport_toDo h
  · exact dealAtChainEnd_toDo (examineHead_still q h)
  · exact admissionPass_toDo h
  · exact startTxB_toDo h
  · exact startTxA_toDo h

/-- With fuel for what is left to do, all consequences are drawn. -/
theorem settle_completes (n : Nat) {s : State} (q : s.frontStill) (fuel : s.toDo ≤ n) : (settle n s).complete := by
  induction n generalizing s with
  | zero =>
    cases reacts : react s with
    | none => exact reacts
    | some t =>
      have := react_toDo q reacts
      omega
  | succ n ih =>
    rw [settle]
    cases reacts : react s with
    | none => exact reacts
    | some t => exact ih ((react_kept q reacts).still q) (by have := react_toDo q reacts; omega)

/-- With Port B's link UP, or no released frame behind the head, the fuel of an event is enough. -/
theorem settled_completes {s : State} (q : s.frontStill) (few : s.endings ≤ 1) : (settled s).complete :=
  settle_completes _ q (s.toDo_le.trans (by unfold Config.settleFuel; omega))

theorem State.endings_up {s : State} (up : s.lnk.b.link = .up) : s.endings = 0 := by
  simp [State.endings, up]

/-- An invariant of the consequences of an event holds when they are drawn, and then nothing is due. -/
theorem settled_reaches {P : State → Prop} {s : State} (q : s.frontStill) (few : s.endings ≤ 1) (start : P s)
    (step : ∀ x y, x.frontStill → P x → react x = some y → P y) : P (settled s) ∧ (settled s).complete :=
  ⟨(settle_keeps (P := fun x => x.frontStill ∧ P x) (R := fun _ _ => True) (fun _ => trivial) (fun _ _ _ _ _ => trivial)
    (fun x y p h => ⟨⟨(react_kept p.1 h).still p.1, step x y p.1 p.2 h⟩, trivial⟩) _ s ⟨q, start⟩).1.2,
    settled_completes q few⟩

end Sys2Proof.Machine
end

section
/-! SUPPORT. An event of the chain link: its own effect leaves the matrix side alone, the front of the Forward Queue stays still, and its
consequences keep what `KeptChain` and `KeptMatrix` say (R129 to R149). -/

namespace Sys2Proof.Machine

/-- A front stays still where the Forward Queue, the agent, the engine, the latch list, the mode and the strap stand, a released head keeps
Port B's link, and a barred report outbox stays barred. -/
theorem frontStill_across {s t : State} (queue : t.fwq.queue = s.fwq.queue)
    (link : ∀ x ∈ s.fwq.queue.head?, x.status = .released → s.lnk.b.link = .up → t.lnk.b.link = .up)
    (agent : t.mga = s.mga ∧ t.rtq.responseHeld = s.rtq.responseHeld) (engine : t.ste = s.ste)
    (latch : t.csd.latch = s.csd.latch) (mode : t.mdc.mode = s.mdc.mode) (addr : t.lnk.addr = s.lnk.addr)
    (barred : s.stepWaits → s.reportBarred → t.reportBarred) (q : s.frontStill) : t.frontStill := by
  rcases q with quiet | busy | ⟨x, l, head, status⟩ | ⟨run, addressed, x, l, head, waits⟩
  · exact .inl (by unfold State.headQuiet; rwa [queue])
  · exact .inr (.inl (by unfold State.agentBusy; rwa [agent.1, agent.2]))
  · refine .inr (.inr (.inl ⟨x, l, queue.trans head, status.imp_right fun released => ⟨released.1, ?_⟩⟩))
    exact link x (by simp [head]) released.1 released.2
  · refine .inr (.inr (.inr ⟨mode.trans run, by rw [Lnk.transparent, addr]; exact addressed, x, l, queue.trans head, waits.1,
      waits.2.1, ?_⟩))
    exact stepBarred_of_same (by rw [engine]; exact ⟨rfl, rfl⟩) (by rw [latch]; exact id)
      (barred ⟨run, addressed, x, l, head, waits⟩) waits.2.2

/-- What the consequences leave of an event whose own effect reaches, from the state `s` of its instant, the state `x`, with flow marks
sent or an operation beside it that `Kept` speaks of. -/
structure ChainEvent (s x u : State) : Prop where
  chain : KeptChain x u
  matrix : KeptMatrix s u

theorem ChainEvent.settled {s x e : State} (kept : Kept x e) (matrix : KeptMatrix s x) (q : x.frontStill) :
    ChainEvent s x (settled e) :=
  have all := kept.trans (settled_kept e (kept.still q))
  ⟨all.1, matrix.trans all.2⟩

/-- A change of the chain side moves nothing on the matrix side. -/
theorem ChainOnly.matrix {s t : State} (h : ChainOnly s t) (evu : t.evu = s.evu) (axu : t.axu = s.axu) : KeptMatrix s t :=
  .ofSame h.now h.tbs axu h.rev h.ste h.csd h.vfu h.mdc evu

theorem ChainOnly.still {s t : State} (h : ChainOnly s t) (evu : t.evu = s.evu) : Still s t :=
  ⟨by rw [h.ste]; exact ⟨rfl, rfl⟩, h.csd, h.tbs, evu, h.mdc⟩

/-- Nothing moves after an event whose own effect moves nothing, where nothing was about to launch. -/
theorem Still.settled {s e : State} (h : Still s e) (q : e.frontStill) (c : s.calm) : Still s (settled e) :=
  h.trans (settled_still e q (h.calm c))

theorem setPort_only (s : State) (p : Port) (x : PortState) : ChainOnly s (s.setPort p x) := by
  cases p <;> exact ⟨rfl, rfl, rfl, rfl, rfl, rfl, rfl, rfl, rfl, rfl⟩

theorem setPort_matrix (s : State) (p : Port) (x : PortState) : KeptMatrix s (s.setPort p x) :=
  (setPort_only s p x).matrix (by simp) (by simp)

/-- A port that keeps its link leaves the front still. -/
theorem setPort_frontStill {s : State} {p : Port} {x : PortState} (link : p = .b → s.lnk.b.link = .up → x.link = .up)
    (q : s.frontStill) : (s.setPort p x).frontStill := by
  refine frontStill_across (by simp) (fun y _ _ up => ?_) (by simp) (by simp) (by simp) (by simp) (by simp)
    (fun _ => reportBarred_of_same (by simp) (by simp) (by simp)) q
  cases p with
  | a => exact up
  | b => exact link rfl up

end Sys2Proof.Machine
end

section
/-! PROOF. A link-up event sends the current flow mark (R129, R148; O6). -/

namespace Sys2Proof.Machine

theorem bringUp_down {p : Port} {s : State} (down : (s.lnk.port p).link = .down) (idle : (s.lnk.port p).tx = none) :
    bringUp p s = s.setPort p
      { s.lnk.port p with link := .up, wire := .mark (s.lnk.sentOn p) :: (s.lnk.port p).wire } := by
  simp [bringUp, down, PortState.sendMark, idle]

/-- Settles O6: the mark is on the wire of an idle port, and nothing else changes. -/
theorem linkUpSendsTheMark : Obligations.LinkUpSendsTheMark := by
  intro time p s running q down idle
  have effect := bringUp_down (p := p) (s := s.advance time) down idle
  have front := setPort_frontStill (s := s.advance time) (p := p)
    (x := { s.lnk.port p with link := .up, wire := .mark (s.lnk.sentOn p) :: (s.lnk.port p).wire }) (fun _ _ => rfl) q
  have event := ChainEvent.settled (.refl _) (setPort_matrix _ _ _) front
  exact ⟨_, congrArg Host.Outcome.next ((event_running _ running).trans (congrArg settled effect)), event.chain, event.matrix,
    fun c => ((setPort_only _ _ _).still (by simp)).settled front c⟩

end Sys2Proof.Machine
end

section
/-! PROOF. A frame that fails the check is counted and signalled (R132, R149; O8). -/

namespace Sys2Proof.Machine

/-- A signal that requests no trip is no more than a consequence of an event may be. -/
theorem signal_kept {f : Flag} (untripped : f.trip = none) (s : State) : Kept s (signal f s) :=
  (signal_passed f s untripped).kept

theorem signal_latches (f : Flag) (s : State) : (signal f s).isLatched f = true := by
  have small : f.bit < 16 := by
    cases f with
    | mismatch b => exact b.isLt.trans (by decide)
    | _ => decide
  have latched : (latchFlag f s).isLatched f = true := by
    unfold latchFlag
    split
    · assumption
    · simp [State.isLatched, Flag.set, small]
  simpa [signal, State.isLatched] using latched

/-- What a signal makes of the Event Unit depends on the flags, the waiting ALERT frame, the alert mask and the strap alone. -/
theorem latchFlag_evu_congr {s t : State} (f : Flag) (evu : t.evu = s.evu) (alert : t.rtq.alert = s.rtq.alert)
    (tbs : t.tbs = s.tbs) (addr : t.lnk.addr = s.lnk.addr) : (latchFlag f t).evu = (latchFlag f s).evu := by
  unfold latchFlag State.isLatched raiseAlert Lnk.transparent
  dsimp only
  rw [evu, alert, tbs, addr]
  split
  · exact evu
  · split
    · rfl
    · split <;> rfl

theorem signal_evu (f : Flag) (s : State) : (signal f s).evu = (latchFlag f s).evu := by
  simp [signal]

/-- Settles O8: the count and the signal are the whole effect. -/
theorem badFramesAreCounted : Obligations.BadFramesAreCounted := by
  intro time p bs s running q up bad
  let x := (s.advance time).setPort p { s.lnk.port p with checkErrors := min ((s.lnk.port p).checkErrors + 1) 65535 }
  have effect : receiveFrame p bs (s.advance time) = signal .checkErr x := by
    have up' : ((s.advance time).lnk.port p).link = .up := up
    have bad' : frameCheckOk (s.advance time).lnk.sense bs = false := bad
    simp only [receiveFrame, up', bad', Bool.false_eq_true, if_false]
    rfl
  have front : x.frontStill := setPort_frontStill (s := s.advance time) (fun e => by subst e; exact id) q
  have kept := signal_kept (f := .checkErr) rfl x
  have event := ChainEvent.settled kept (setPort_matrix (s.advance time) p _) front
  refine ⟨_, congrArg Host.Outcome.next ((event_running _ running).trans (congrArg settled effect)), event.chain, event.matrix,
    ?_, fun c => ?_⟩
  · exact (settled_kept _ (kept.still front)).2.flags _ (signal_latches .checkErr x)
  · have only := setPort_only (s.advance time) p
      { s.lnk.port p with checkErrors := min ((s.lnk.port p).checkErrors + 1) 65535 }
    have passed := signal_passed .checkErr x rfl
    have csd : (signal .checkErr x).csd = s.csd := by simp [x]
    have mdc : (signal .checkErr x).mdc = s.mdc := passed.mdc.trans only.mdc
    have calm : (signal .checkErr x).calm := by
      unfold State.calm safeComplete at *
      rwa [csd, mdc]
    have still := settled_still _ (kept.still front) calm
    refine ⟨still.coil.trans csd, still.tables.trans (by simp [x]), still.control.trans mdc, still.events.trans ?_⟩
    rw [signal_evu]
    exact latchFlag_evu_congr _ (by simp [x]) (by simp [x]) (by simp [x]) (by simp [x])

end Sys2Proof.Machine
end

section
/-! PROOF. Frames from above join the Forward Queue (R136, R137, R149; O9), and frames from below the Return Queue (R144; O10). -/

namespace Sys2Proof.Machine

/-- A blocked front stays blocked when a frame joins the tail. -/
theorem frontBlocked_append {s : State} (l : List FwdEntry) (q : s.frontBlocked) :
    State.frontBlocked { s with fwq.queue := s.fwq.queue ++ l } := by
  refine q.imp id (Or.imp ?_ ?_)
  · rintro ⟨x, m, head, status⟩
    exact ⟨x, m ++ l, by simp [head], status⟩
  · rintro ⟨run, addressed, x, m, head, waits⟩
    exact ⟨run, addressed, x, m ++ l, by simp [head], waits⟩

/-- A sound frame that arrives is placed by the rules of its port (R132). -/
theorem receiveFrame_sound {p : Port} {bs : List Byte} {s : State} (up : (s.lnk.port p).link = .up)
    (sound : frameCheckOk s.lnk.sense bs = true) : receiveFrame p bs s = placeFrame p (parseFrame bs) s := by
  simp [receiveFrame, up, sound]

theorem exec_received {time : Nat} {p : Port} {bs : List Byte} {s : State} (running : s.running)
    (up : (s.lnk.port p).link = .up) (sound : frameCheckOk s.lnk.sense bs = true) :
    exec (.frameReceived time p bs) s = .next (settled (placeFrame p (parseFrame bs) (s.advance time))) :=
  congrArg Host.Outcome.next ((event_running _ running).trans
    (congrArg settled (receiveFrame_sound (s := s.advance time) up sound)))

/-- A frame that finds its queue full is counted and signalled (R137, R144, R149, R170). -/
theorem dropped_event {s : State} {l : Lnk} (b : l.b.link = s.lnk.b.link) (straps : l.addr = s.lnk.addr ∧ l.margin = s.lnk.margin)
    (q : s.frontStill) : ChainEvent s { s with lnk := l } (settled (signal .overflow { s with lnk := l })) ∧
      (settled (signal .overflow { s with lnk := l })).isLatched .overflow = true := by
  have front : State.frontStill { s with lnk := l } :=
    frontStill_across (s := s) rfl (fun _ _ _ up => b.trans up) ⟨rfl, rfl⟩ rfl rfl rfl straps.1
      (fun _ => reportBarred_of_same (s := s) rfl straps.2 rfl) q
  have kept := signal_kept (f := .overflow) rfl { s with lnk := l }
  exact ⟨.settled kept (.ofSame rfl rfl rfl rfl rfl rfl rfl rfl rfl) front,
    (settled_kept _ (kept.still front)).2.flags _ (signal_latches .overflow _)⟩

/-- Settles O9: the frame joins the tail behind a blocked front, or is dropped. -/
theorem forwardQueueAdmits : Obligations.ForwardQueueAdmits := by
  intro time bs s running up sound other
  have effect : placeFrame .a (parseFrame bs) (s.advance time) = receiveFwd (parseFrame bs) (s.advance time) := if_neg other
  have outcome := exec_received (time := time) (p := .a) running up sound
  rw [effect] at outcome
  refine ⟨fun blocked room => ⟨_, outcome, ?_⟩, fun q full => ⟨_, outcome, ?_⟩⟩
  · have admitted : receiveFwd (parseFrame bs) (s.advance time) = appendFwd (parseFrame bs) (s.advance time) := if_pos room
    rw [admitted]
    have event := ChainEvent.settled (s := s.advance time)
      (compareFwd_kept { s.advance time with fwq.queue := s.fwq.queue ++ [arrivedEntry bs] })
      (.ofSame rfl rfl rfl rfl rfl rfl rfl rfl rfl)
      (.inr (frontBlocked_append (s := s.advance time) _ blocked))
    exact ⟨event.chain, event.matrix⟩
  · have dropped : receiveFwd (parseFrame bs) (s.advance time) =
        signal .overflow { s.advance time with lnk.fwdDrops := min (s.lnk.fwdDrops + 1) 65535 } := if_neg (Nat.not_lt.mpr full)
    rw [dropped]
    obtain ⟨event, latched⟩ := dropped_event (s := s.advance time)
      (l := { s.lnk with fwdDrops := min (s.lnk.fwdDrops + 1) 65535 }) rfl ⟨rfl, rfl⟩ q
    exact ⟨event.chain, event.matrix, latched⟩

/-- A front stays still when a frame joins the Return Queue. -/
theorem frontStill_joined {s : State} (l : List RetEntry) (q : s.frontStill) :
    State.frontStill { s with rtq.queue := s.rtq.queue ++ l } :=
  frontStill_across (s := s) rfl (fun _ _ _ => id) ⟨rfl, rfl⟩ rfl rfl rfl rfl
    (fun _ barred => ⟨barred.1, barred.2.trans (by simp)⟩) q

/-- Settles O10: the frame joins the tail with its bytes, or is dropped. -/
theorem returnTrafficIsPassed : Obligations.ReturnTrafficIsPassed := by
  intro time bs s running q up sound
  have outcome := exec_received (time := time) (p := .b) running up sound
  change _ = Host.Outcome.next (settled (receiveRet (parseFrame bs) (s.advance time))) at outcome
  refine ⟨fun room => ⟨_, outcome, wireBytes_parseFrame sound _, ?_⟩, fun full => ⟨_, outcome, ?_⟩⟩
  · have admitted : receiveRet (parseFrame bs) (s.advance time) = appendRet (parseFrame bs) false (s.advance time) :=
      if_pos room
    rw [admitted]
    have front := frontStill_joined (s := s.advance time) [{ frame := parseFrame bs, own := false }] q
    have kept := compareRet_kept { s.advance time with rtq.queue := s.rtq.queue ++ [{ frame := parseFrame bs, own := false }] }
    have event := ChainEvent.settled (s := s.advance time) kept (.ofSame rfl rfl rfl rfl rfl rfl rfl rfl rfl) front
    exact ⟨event.chain, event.matrix, fun c => (appendRet_still (parseFrame bs) false (s.advance time)).settled (kept.still front) c⟩
  · have dropped : receiveRet (parseFrame bs) (s.advance time) =
        signal .overflow { s.advance time with lnk.retDrops := min (s.lnk.retDrops + 1) 65535 } := if_neg (Nat.not_lt.mpr full)
    rw [dropped]
    obtain ⟨event, latched⟩ := dropped_event (s := s.advance time)
      (l := { s.lnk with retDrops := min (s.lnk.retDrops + 1) 65535 }) rfl ⟨rfl, rfl⟩ q
    exact ⟨event.chain, event.matrix, latched⟩

end Sys2Proof.Machine
end

section
/-! SUPPORT. What the transmitters send once the consequences of an event are drawn (R130, R138, R146). -/

namespace Sys2Proof.Machine

theorem completeSafe_lnk {s t : State} (h : completeSafe s = some t) : t.lnk = s.lnk := by
  obtain ⟨-, ⟨-, rfl⟩ | ⟨-, rfl⟩⟩ := completeSafe_cases h
  · obtain ⟨x, d, o, eq⟩ := formSafeDrive_eq { s with mdc.redrive := false }
    rw [eq]
  · simp

/-- One consequence of an event leaves both transmitters, or begins a transmission. -/
theorem react_tx {s t : State} (q : s.frontStill) (h : react s = some t) :
    (t.lnk.a.tx = s.lnk.a.tx ∧ t.lnk.b.tx = s.lnk.b.tx) ∨ startTxB s = some t ∨ startTxA s = some t := by
  have early (e : Early s t) : t.lnk.a.tx = s.lnk.a.tx ∧ t.lnk.b.tx = s.lnk.b.tx := by
    rw [(Early.beside e).lnk]
    exact ⟨rfl, rfl⟩
  obtain h | h | h | h | h | h | h | h | h | h | h := react_cases h
  · exact .inl (early (.inl h))
  · exact .inl (early (.inr (.inl h)))
  · exact .inl (early (.inr (.inr ⟨t, chooseVerify_of_still q ▸ h, .inl rfl⟩)))
  · exact .inl (by simp [completeSafe_lnk h])
  · exact .inl (by simp [endHold_frame s h])
  · exact .inl (by simp [offerAnswer_frame s h])
  · exact .inl (by simp [offerReport_frame s h])
  · exact .inl (by simp [dealAtChainEnd_frame s (examineHead_still q h)])
  · exact .inl (by simp [admissionPass_frame s h])
  · exact .inr (.inl h)
  · exact .inr (.inr h)

/-! ## Port B -/

/-- A transmission that has just begun. -/
def begun (source : TxSource) (bytes : List Byte) : Tx := { source := source, bytes := bytes, flushed := false }

/-- What Port B's transmitter would begin, were it idle: the urgent slot, whatever the received mark; otherwise a released head while
the received mark is GO (R138). -/
def State.nextB (s : State) : Option Tx :=
  match s.fwq.slot with
  | some f => some (begun .urgentSlot (f.wireBytes false s.lnk.sense))
  | none =>
    match s.fwq.queue with
    | x :: _ =>
      if x.status = .released ∧ s.lnk.b.received = .go then
        some (begun .forwardHead (x.frame.wireBytes x.own s.lnk.sense))
      else none
    | [] => none

theorem nextB_urgent {s : State} {f : Frame} (slot : s.fwq.slot = some f) :
    s.nextB = some (begun .urgentSlot (f.wireBytes false s.lnk.sense)) := by
  simp [State.nextB, slot]

theorem nextB_head {s : State} {x : FwdEntry} {l : List FwdEntry} (slot : s.fwq.slot = none) (head : s.fwq.queue = x :: l)
    (released : x.status = .released) (go : s.lnk.b.received = .go) :
    s.nextB = some (begun .forwardHead (x.frame.wireBytes x.own s.lnk.sense)) := by
  simp [State.nextB, slot, head, released, go]

theorem nextB_paused {s : State} (slot : s.fwq.slot = none) (pause : s.lnk.b.received = .pause) : s.nextB = none := by
  unfold State.nextB
  rw [slot]
  dsimp only
  split <;> simp [pause]

/-- What Port B would begin depends on the slot, the Forward Queue, the received mark and the check sense alone. -/
theorem nextB_congr {s t : State} (fwq : t.fwq = s.fwq) (received : t.lnk.b.received = s.lnk.b.received)
    (sense : t.lnk.sense = s.lnk.sense) : t.nextB = s.nextB := by
  unfold State.nextB
  rw [fwq, received, sense]

theorem startTxB_eq {s : State} (up : s.lnk.b.link = .up) (idle : s.lnk.b.tx = none) :
    startTxB s = s.nextB.map fun x => { s with lnk.b := { s.lnk.b with tx := some x } } := by
  cases slot : s.fwq.slot with
  | some f => simp [startTxB, State.nextB, up, idle, slot, PortState.start, begun]
  | none =>
    cases queue : s.fwq.queue with
    | nil => simp [startTxB, State.nextB, up, idle, slot, queue]
    | cons x l =>
      by_cases sends : x.status = .released ∧ s.lnk.b.received = .go
      · simp [startTxB, State.nextB, up, idle, slot, queue, sends, PortState.start, begun]
      · simp [startTxB, State.nextB, up, idle, slot, queue, sends]

/-- A transmitter that is not idle begins nothing. -/
theorem startTxB_busy {s : State} {x : Tx} (busy : s.lnk.b.tx = some x) : startTxB s = none :=
  if_neg fun h => by rw [busy] at h; cases h.2

/-- An idle transmitter of an UP Port B begins what it would begin. -/
theorem settle_txB (n : Nat) {s : State} (q : s.frontStill) (up : s.lnk.b.link = .up) (idle : s.lnk.b.tx = none)
    (fuel : s.toDo ≤ n) : (settle n s).lnk.b.tx = s.nextB := by
  have step : ∀ x y, (x.frontStill ∧ x.lnk.b.link = .up ∧ x.nextB = s.nextB ∧
      (x.lnk.b.tx = none ∨ x.lnk.b.tx = s.nextB)) → react x = some y →
      (y.frontStill ∧ y.lnk.b.link = .up ∧ y.nextB = s.nextB ∧ (y.lnk.b.tx = none ∨ y.lnk.b.tx = s.nextB)) ∧ True := by
    rintro x y ⟨q, up, next, tx⟩ h
    have kept := react_kept q h
    have fwq : y.fwq = x.fwq := by
      have queue := (kept.1.forwardKept (.inl up)).1
      have slot := kept.1.slot
      cases hx : x.fwq
      cases hy : y.fwq
      simp_all
    have next' : y.nextB = x.nextB := nextB_congr fwq kept.1.marks.2 kept.1.straps.2.2
    refine ⟨⟨kept.still q, kept.1.links.2.trans up, next'.trans next, ?_⟩, trivial⟩
    rcases react_tx q h with ⟨-, same⟩ | begins | begins
    · rwa [same]
    · rcases tx with idle | sends
      · rw [startTxB_eq up idle, next] at begins
        obtain ⟨z, chosen, rfl⟩ := Option.map_eq_some_iff.mp begins
        exact .inr chosen.symm
      · cases chosen : s.nextB with
        | none =>
          rw [chosen] at sends
          rw [startTxB_eq up sends, next, chosen] at begins
          cases begins
        | some z =>
          rw [startTxB_busy (sends.trans chosen)] at begins
          cases begins
    · simpa [startTxA_frame x begins] using tx
  obtain ⟨⟨-, up', next, tx⟩, -⟩ := settle_keeps (R := fun _ _ => True) (fun _ => trivial) (fun _ _ _ _ _ => trivial)
    (fun x y p h => step x y p h) n s ⟨q, up, rfl, .inl idle⟩
  rcases tx with idle' | sends
  · obtain ⟨-, -, -, -, -, -, -, -, -, undue, -⟩ := complete_parts (settle_completes n q fuel)
    rw [startTxB_eq up' idle', next, Option.map_eq_none_iff] at undue
    rw [idle', undue]
  · exact sends

/-! ## Port A -/

/-- What Port A's transmitter would begin with a frame of the Return Queue at its head (R146). -/
def State.nextA (s : State) : Option Tx :=
  s.rtq.queue.head?.map fun x => begun .returnHead (x.frame.wireBytes x.own s.lnk.sense)

theorem startTxA_eq {s : State} (up : s.lnk.a.link = .up) (idle : s.lnk.a.tx = none) (go : s.lnk.a.received = .go) :
    startTxA s = s.nextA.map fun x => { s with lnk.a := { s.lnk.a with tx := some x } } := by
  cases queue : s.rtq.queue with
  | nil => simp [startTxA, State.nextA, up, idle, go, queue]
  | cons x l => simp [startTxA, State.nextA, up, idle, go, queue, PortState.start, begun]

theorem startTxA_paused {s : State} (pause : s.lnk.a.received = .pause) : startTxA s = none :=
  if_neg fun h => by rw [pause] at h; cases h.2.2

theorem startTxA_busy {s : State} {x : Tx} (busy : s.lnk.a.tx = some x) : startTxA s = none :=
  if_neg fun h => by rw [busy] at h; cases h.2.1

/-- Under PAUSE an idle transmitter of Port A stays idle (R146, R147). -/
theorem settle_txA_paused (n : Nat) {s : State} (q : s.frontStill) (pause : s.lnk.a.received = .pause)
    (idle : s.lnk.a.tx = none) : (settle n s).lnk.a.tx = none := by
  refine ((settle_keeps (P := fun x => x.frontStill ∧ x.lnk.a.received = .pause ∧ x.lnk.a.tx = none) (R := fun _ _ => True)
    (fun _ => trivial) (fun _ _ _ _ _ => trivial) ?_ n s ⟨q, pause, idle⟩).1).2.2
  rintro x y ⟨q, pause, idle⟩ h
  have kept := react_kept q h
  refine ⟨⟨kept.still q, kept.1.marks.1.trans pause, ?_⟩, trivial⟩
  rcases react_tx q h with ⟨same, -⟩ | begins | begins
  · exact same.trans idle
  · simpa [startTxB_frame x begins] using idle
  · rw [startTxA_paused pause] at begins
    cases begins

end Sys2Proof.Machine
end

section
/-! SUPPORT. After a change of the chain side in a state in which nothing was due, with the outboxes as they were and no head to examine,
the transmitters alone act (R138, R146). -/

namespace Sys2Proof.Machine

/-- Where no head was due to be examined, none is while the front of the Forward Queue, the link, the agent, the strap and the ECHO
outbox stand. -/
theorem examineHead_none_across {s t : State} (front : t.frontStill) (queue : t.fwq.queue = s.fwq.queue)
    (link : t.lnk.b.link = s.lnk.b.link) (mga : t.mga = s.mga) (addr : t.lnk.addr = s.lnk.addr)
    (echo : t.rtq.echo = s.rtq.echo) (undue : examineHead s = none) : examineHead t = none := by
  cases due : examineHead t with
  | none => rfl
  | some v =>
    have deals := examineHead_still front due
    have settles : dealAtChainEnd t = none := by
      refine dealAtChainEnd_eq_none_iff.mpr fun x l down head released => ?_
      have idle : t.mga = .idle := by
        unfold examineHead at due
        split at due
        · assumption
        · cases due
      have same : examineHead s = dealAtChainEnd s := by
        unfold examineHead
        rw [← mga, idle, ← queue, head]
        simp only [released]
      rw [Lnk.transparent, addr, echo]
      exact dealAtChainEnd_eq_none_iff.mp (same.symm.trans undue) x l (link ▸ down) (queue ▸ head) released
    rw [settles] at deals
    cases deals

/-- On the matrix side nothing is due. -/
structure State.Rested (s : State) : Prop where
  restart : restartEvaluation s = none
  pass : s.csd.passDue = false
  verify : verifyAction s = none
  safe : safeComplete s = false
  hold : (s.rtq.responseHeld && !s.csd.anyInFlight) = false

theorem State.complete.rested {s : State} (c : s.complete) : s.Rested := by
  obtain ⟨restart, pass, choose, safe, hold, -⟩ := complete_parts c
  refine ⟨restart, passDue_of_complete pass, verifyAction_of_complete choose, ?_, ?_⟩
  · unfold completeSafe at safe
    split at safe
    · split at safe <;> cases safe
    · next incomplete => simpa using incomplete
  · unfold endHold at hold
    split at hold
    · cases hold
    · next holds => simpa using holds

/-- Nothing becomes due on the matrix side while it stands. -/
theorem State.Rested.across {s t : State} (h : s.Rested) (now : t.now = s.now) (tables : t.tbs = s.tbs ∧ t.rev = s.rev)
    (engine : t.ste = s.ste) (coil : t.csd = s.csd) (control : t.vfu = s.vfu ∧ t.mdc = s.mdc)
    (held : t.rtq.responseHeld = s.rtq.responseHeld) : t.Rested := by
  have only : ChainOnly s { t with mga := s.mga, rtq := s.rtq } :=
    ⟨now, rfl, tables.1, tables.2, engine, coil, control.1, control.2, rfl, rfl⟩
  have verify := verifyAction_eq_none_iff.mp (only.verifyAction_none h.verify)
  refine ⟨?_, by rw [coil]; exact h.pass,
    verifyAction_eq_none_iff.mpr verify, ?_, ?_⟩
  · have restart := h.restart
    rw [restartEvaluation_eq_none_iff] at restart ⊢
    rwa [tables.1, tables.2, coil]
  · have safe := h.safe
    unfold safeComplete at safe ⊢
    rwa [control.2, coil]
  · rw [held, coil]
    exact h.hold

theorem ChainOnly.rested {s t : State} (h : ChainOnly s t) (r : s.Rested) : t.Rested :=
  r.across h.now ⟨h.tbs, h.rev⟩ h.ste h.csd ⟨h.vfu, h.mdc⟩ h.held

theorem State.Rested.react_eq {s : State} (h : s.Rested) :
    react s = (offerAnswer s).orElse fun _ => (offerReport s).orElse fun _ => (examineHead s).orElse fun _ =>
      (admissionPass s).orElse fun _ => (startTxB s).orElse fun _ => startTxA s := by
  simp [react, h.restart, makePass, h.pass, chooseVerify, h.verify, completeSafe, h.safe, endHold, h.hold]

/-- A state in which the transmitters alone have something to do. -/
structure State.OnlySends (s : State) : Prop where
  rested : s.Rested
  answer : offerAnswer s = none
  report : offerReport s = none
  front : s.frontStill
  undue : examineHead s = none
  pass : admissionPass s = none

theorem offerReport_congr {s t : State} (ste : t.ste = s.ste) (report : t.rtq.report = s.rtq.report)
    (undue : offerReport s = none) : offerReport t = none := by
  unfold offerReport at undue ⊢
  rw [ste, report]
  split at undue
  · cases undue
  · rfl

theorem offerAnswer_congr {s t : State} (mga : t.mga = s.mga) (response : t.rtq.response = s.rtq.response)
    (undue : offerAnswer s = none) : offerAnswer t = none := by
  unfold offerAnswer at undue ⊢
  rw [mga, response]
  split at undue
  · cases undue
  · rfl

theorem admissionPass_congr {s t : State} (rtq : t.rtq = s.rtq) (margin : t.lnk.margin = s.lnk.margin)
    (undue : admissionPass s = none) : admissionPass t = none := by
  have ready : t.outboxReady = s.outboxReady := by
    unfold State.outboxReady State.outboxRoom State.retFree
    rw [rtq, margin]
  unfold admissionPass at undue ⊢
  rw [ready]
  split at undue
  · cases undue
  · next not => exact if_neg not

theorem State.OnlySends.react_eq {s : State} (h : s.OnlySends) : react s = (startTxB s).orElse fun _ => startTxA s := by
  rw [h.rested.react_eq, h.answer, h.report, h.undue, h.pass]
  rfl

/-- What the transmitters alone can move stays so while the rest stands. -/
theorem State.OnlySends.across {s t : State} (h : s.OnlySends) (only : ChainOnly s t) (rtq : t.rtq = s.rtq)
    (fwq : t.fwq = s.fwq) (link : t.lnk.b.link = s.lnk.b.link)
    (straps : t.lnk.addr = s.lnk.addr ∧ t.lnk.margin = s.lnk.margin) : t.OnlySends :=
  have front := frontStill_across (s := s) (t := t) (by rw [fwq]) (fun _ _ _ => link.trans) ⟨only.mga, only.held⟩ only.ste
    (by rw [only.csd]) (by rw [only.mdc]) straps.1 (fun _ => reportBarred_of_same (by rw [rtq]) straps.2 (by rw [rtq])) h.front
  ⟨only.rested h.rested, offerAnswer_congr only.mga only.response h.answer,
    offerReport_congr only.ste (by rw [rtq]) h.report, front,
    examineHead_none_across front (by rw [fwq]) link only.mga straps.1 (by rw [rtq]) h.undue,
    admissionPass_congr rtq straps.2 h.pass⟩

/-- In a complete state in which the front is still, the transmitters alone could have something to do. -/
theorem State.complete.onlySends {s : State} (c : s.complete) (q : s.frontStill) : s.OnlySends :=
  have ⟨_, _, _, _, _, answer, report, undue, pass, _⟩ := complete_parts c
  ⟨c.rested, answer, report, q, undue, pass⟩

theorem State.OnlySends.startsB {s t : State} (h : s.OnlySends) (begins : startTxB s = some t) : t.OnlySends := by
  have same := startTxB_frame s begins
  exact h.across ⟨by simp [same], by simp [same], by simp [same], by simp [same], by simp [same], by simp [same], by simp [same],
    by simp [same], by simp [same], by simp [same]⟩ (by simp [same]) (by simp [same]) (by simp [same]) (by simp [same])

theorem State.OnlySends.startsA {s t : State} (h : s.OnlySends) (begins : startTxA s = some t) : t.OnlySends := by
  have same := startTxA_frame s begins
  exact h.across ⟨by simp [same], by simp [same], by simp [same], by simp [same], by simp [same], by simp [same], by simp [same],
    by simp [same], by simp [same], by simp [same]⟩ (by simp [same]) (by simp [same]) (by simp [same]) (by simp [same])

theorem startTxB_none_congr {s t : State} (link : t.lnk.b.link = s.lnk.b.link) (tx : t.lnk.b.tx = s.lnk.b.tx)
    (received : t.lnk.b.received = s.lnk.b.received) (fwq : t.fwq = s.fwq) (rests : startTxB s = none) : startTxB t = none := by
  unfold startTxB at rests ⊢
  rw [link, tx, received, fwq]
  repeat' split at rests
  all_goals simp_all

/-- One after the other the transmitters of Port B and of Port A begin, and nothing else. -/
theorem State.OnlySends.settle_eq {s : State} (h : s.OnlySends) (n : Nat) :
    settle (n + 2) s = (startTxA ((startTxB s).getD s)).getD ((startTxB s).getD s) := by
  have rests : ∀ n {u : State}, u.OnlySends → startTxB u = none → startTxA u = none → settle n u = u := fun n u h b a => by
    cases n with
    | zero => rfl
    | succ n => simp [settle, h.react_eq, b, a]
  have sendsA : ∀ n {u : State}, u.OnlySends → startTxB u = none → settle (n + 1) u = (startTxA u).getD u := fun n u h b => by
    cases begins : startTxA u with
    | none => exact rests _ h b begins
    | some v =>
      have same := startTxA_frame u begins
      have idleB : startTxB v = none :=
        startTxB_none_congr (by simp [same]) (by simp [same]) (by simp [same]) (by simp [same]) b
      have busyA : startTxA v = none := by
        unfold startTxA at begins
        repeat' split at begins
        all_goals cases begins
        exact startTxA_busy rfl
      simp only [settle, h.react_eq, b, begins, Option.orElse_none, Option.getD_some]
      exact rests n (h.startsA begins) idleB busyA
  cases begins : startTxB s with
  | none => exact sendsA (n + 1) h begins
  | some u =>
    have busyB : startTxB u = none := by
      unfold startTxB at begins
      repeat' split at begins
      all_goals cases begins
      all_goals exact startTxB_busy rfl
    rw [settle, h.react_eq, begins]
    exact sendsA n (h.startsB begins) busyB

theorem startTxA_getD (s : State) :
    ((startTxA s).getD s).rtq = s.rtq ∧ ((startTxA s).getD s).lnk.b.tx = s.lnk.b.tx := by
  cases begins : startTxA s with
  | none => exact ⟨rfl, rfl⟩
  | some t => simp [startTxA_frame s begins]

/-- The Return Queue and the outboxes stand. -/
theorem State.OnlySends.settle_rtq {s : State} (h : s.OnlySends) (n : Nat) : (settle (n + 2) s).rtq = s.rtq := by
  rw [h.settle_eq, (startTxA_getD _).1]
  cases begins : startTxB s with
  | none => rfl
  | some u => simp [startTxB_frame s begins]

/-- An idle transmitter of an UP Port B begins what it would begin. -/
theorem State.OnlySends.settle_txB {s : State} (h : s.OnlySends) (n : Nat) (up : s.lnk.b.link = .up)
    (idle : s.lnk.b.tx = none) : (settle (n + 2) s).lnk.b.tx = s.nextB := by
  rw [h.settle_eq, (startTxA_getD _).2, startTxB_eq up idle]
  cases s.nextB with
  | none => exact idle
  | some x => rfl

/-- Under GO an idle transmitter of an UP Port A begins the head of the Return Queue. -/
theorem State.OnlySends.settle_txA {s : State} (h : s.OnlySends) (n : Nat) (up : s.lnk.a.link = .up)
    (idle : s.lnk.a.tx = none) (go : s.lnk.a.received = .go) : (settle (n + 2) s).lnk.a.tx = s.nextA := by
  obtain ⟨v, after⟩ : ∃ v, v = (startTxB s).getD s := ⟨_, rfl⟩
  have same : v.lnk.a.link = s.lnk.a.link ∧ v.lnk.a.tx = s.lnk.a.tx ∧ v.lnk.a.received = s.lnk.a.received ∧ v.nextA = s.nextA := by
    rw [after]
    cases b : startTxB s with
    | none => exact ⟨rfl, rfl, rfl, rfl⟩
    | some u => simp [State.nextA, startTxB_frame s b]
  obtain ⟨link, tx, received, next⟩ := same
  rw [h.settle_eq, ← after, startTxA_eq (link.trans up) (tx.trans idle) (received.trans go), ← next]
  cases v.nextA with
  | none => exact tx.trans idle
  | some x => rfl

end Sys2Proof.Machine
end

section
/-! PROOF. A received flow mark is held, and GO lets the next frame go (R129, R138, R146, R147; O12). -/

namespace Sys2Proof.Machine

/-- What a received flow mark changes, the transmitters alone have to do with. -/
theorem onlySends_received {s : State} {p : Port} {x : PortState} (link : x.link = (s.lnk.port p).link) (q : s.frontStill)
    (c : s.complete) : (s.setPort p x).OnlySends := by
  refine (c.onlySends q).across (setPort_only s p x) (by simp) (by simp) ?_ (by simp)
  cases p
  · rfl
  · exact link

/-- Settles O12: the mark is held, and the transmitter that it lets go begins. -/
theorem flowMarksAreHeld : Obligations.FlowMarksAreHeld := by
  intro time p m s running q
  refine ⟨fun up => ?_, fun down => ?_⟩
  · let x : PortState := { s.lnk.port p with received := m }
    have effect : receiveMark p m (s.advance time) = (s.advance time).setPort p x := by
      unfold receiveMark
      dsimp only
      split
      · next down => exact absurd (up.symm.trans down) (by simp)
      · rfl
    have front : ((s.advance time).setPort p x).frontStill :=
      setPort_frontStill (s := s.advance time) (fun e => by subst e; exact id) q
    have event := ChainEvent.settled (.refl _) (setPort_matrix (s.advance time) p x) front
    have only (c : (s.advance time).complete) : ((s.advance time).setPort p x).OnlySends :=
      onlySends_received rfl q c
    refine ⟨_, congrArg Host.Outcome.next ((event_running _ running).trans (congrArg settled effect)), event.chain, event.matrix,
      ?_, ?_⟩
    · rintro y l rfl rfl c idle slot head released
      exact ((only c).settle_txB _ up idle).trans (nextB_head slot head released rfl)
    · rintro rfl c idle
      refine ⟨?_, ?_⟩
      · rintro rfl
        exact settle_txA_paused _ front rfl idle
      · rintro y l rfl head
        refine ((only c).settle_txA _ up idle rfl).trans ?_
        have head' : ((s.advance time).setPort .a x).rtq.queue = y :: l := head
        rw [State.nextA, head']
        rfl
  · have effect : receiveMark p m (s.advance time) = s.advance time := by
      have down' : ((s.advance time).lnk.port p).link = .down := down
      simp only [receiveMark, down']
    have event := ChainEvent.settled (s := s.advance time) (.refl _) (.refl _) q
    exact ⟨_, congrArg Host.Outcome.next ((event_running _ running).trans (congrArg settled effect)), event.chain, event.matrix⟩

end Sys2Proof.Machine
end

section
/-! SUPPORT. The end of a transmission (R130). -/

namespace Sys2Proof.Machine

/-- What a port keeps at the end of its transmission `x`. -/
def PortState.ended (p : PortState) (x : Tx) : PortState :=
  { p with
    tx := none
    marksWaiting := []
    wire := p.marksWaiting.reverse.map WireItem.mark ++ .frame x.bytes :: p.wire }

/-- The end of the transmission `x` out of a container, but for the flow mark that the freed entry calls for. -/
def State.returned (s : State) (x : Tx) : State :=
  { s.setPort .a (s.lnk.a.ended x) with rtq.queue := s.rtq.queue.tail }

def State.forwarded (s : State) (x : Tx) : State :=
  { s.setPort .b (s.lnk.b.ended x) with fwq.queue := s.fwq.queue.tail }

def State.sentUrgent (s : State) (x : Tx) : State :=
  { s.setPort .b (s.lnk.b.ended x) with fwq.slot := none }

theorem endTransmission_returnHead {s : State} {x : Tx} (sending : s.lnk.a.tx = some x) (source : x.source = .returnHead) :
    endTransmission .a s = compareRet (s.returned x) := by
  simp only [endTransmission, Lnk.port_a, sending, vacate, source]
  rfl

theorem endTransmission_forwardHead {s : State} {x : Tx} (sending : s.lnk.b.tx = some x) (source : x.source = .forwardHead) :
    endTransmission .b s = compareFwd (s.forwarded x) := by
  simp only [endTransmission, Lnk.port_b, sending, vacate, source]
  rfl

theorem endTransmission_urgentSlot {s : State} {x : Tx} (sending : s.lnk.b.tx = some x) (source : x.source = .urgentSlot) :
    endTransmission .b s = s.sentUrgent x := by
  simp only [endTransmission, Lnk.port_b, sending, vacate, source]
  rfl

/-- An idle transmitter of an UP Port B begins what it would begin, once all consequences are drawn. -/
theorem settled_txB {s : State} (q : s.frontStill) (up : s.lnk.b.link = .up) (idle : s.lnk.b.tx = none) :
    (settled s).lnk.b.tx = s.nextB :=
  settle_txB _ q up idle (s.toDo_le.trans (by rw [State.endings_up up]; decide))

theorem exec_transmissionEnd {time : Nat} {p : Port} {s : State} (running : s.running) :
    exec (.transmissionEnd time p) s = .next (settled (endTransmission p (s.advance time))) :=
  congrArg Host.Outcome.next (event_running _ running)

/-- After an admission pass none is due. -/
theorem Admitted.pass_none {s t : State} (h : Admitted s t) : admissionPass t = none := by
  refine if_neg fun ready => ?_
  obtain ⟨room, offered⟩ := Bool.and_eq_true_iff.mp ready
  have room := outboxRoom_iff.mp room
  rw [h.joined.room] at room
  simp only [List.length_append] at room
  have alert : t.rtq.alert = none := by rw [h.alert, if_pos (by omega)]
  have response : t.rtq.responseHeld = false → t.rtq.response = none := fun unheld => by
    rw [h.response, if_pos ⟨by omega, h.joined.held.symm.trans unheld⟩]
  have echo : t.rtq.echo = none := by rw [h.echo, if_pos (by omega)]
  have report : t.rtq.report = none := by rw [h.report, if_pos (by omega)]
  cases held : t.rtq.responseHeld <;> simp_all

/-- The front stays still when the Return Queue's head leaves, unless a step frame waits for the report outbox. -/
theorem frontStill_departed {s : State} (q : s.frontStill) (unbarred : s.rtq.report = none ∨ ¬s.stepWaits) :
    State.frontStill { s with rtq.queue := s.rtq.queue.tail } :=
  frontStill_across (s := s) rfl (fun _ _ _ => id) ⟨rfl, rfl⟩ rfl rfl rfl rfl
    (fun waits barred => (unbarred.elim barred.1 fun no => no waits).elim) q

end Sys2Proof.Machine
end

section
/-! PROOF. The end of a transmission frees the container, and the next frame follows (R130, R138, R145 to R147; O13). -/

namespace Sys2Proof.Machine

/-- On Port A, where nothing else was due, an admission pass follows the departure, and then the transmitters. -/
theorem settled_returned {s : State} {x : Tx} (sending : s.lnk.a.tx = some x) (source : x.source = .returnHead)
    (front : (endTransmission .a s).frontStill) (c : s.complete) (passes : s.lnk.b.link = .up ∨ s.fwq.queue = [])
    (agent : ∀ f, s.mga ≠ .answerWait f) (engine : s.ste.st = .reportWait → s.ste.report = none) :
    ∃ n, State.OnlySends ((admissionPass (endTransmission .a s)).getD (endTransmission .a s)) ∧
      settled (endTransmission .a s) = settle (n + 2) ((admissionPass (endTransmission .a s)).getD (endTransmission .a s)) := by
  obtain ⟨only, rtq, fwq, link, margin, addr⟩ := endTransmission_returned sending source
  obtain ⟨e, ended⟩ : ∃ e, e = endTransmission .a s := ⟨_, rfl⟩
  rw [← ended] at only rtq fwq link margin addr front ⊢
  have undue (t : State) (fwq' : t.fwq = e.fwq) (link' : t.lnk.b.link = e.lnk.b.link) (q : t.frontStill) :
      examineHead t = none := by
    cases due : examineHead t with
    | none => rfl
    | some v =>
      refine absurd (examineHead_still q due) ?_
      rw [dealAtChainEnd_eq_none_iff.mpr fun y l down head _ => ?_]
      · simp
      · rcases passes with up | empty
        · simp [link', link, up] at down
        · simp [fwq', fwq, empty] at head
  have answer (t : State) (mga : t.mga = e.mga) : offerAnswer t = none := by
    unfold offerAnswer
    split
    · next f waits _ => exact absurd ((only.mga.symm.trans mga.symm).trans waits) (agent f)
    · rfl
  have report (t : State) (ste : t.ste = e.ste) : offerReport t = none := by
    unfold offerReport
    rw [ste, only.ste]
    split
    · next f waits pending _ => rw [engine waits] at pending; cases pending
    · rfl
  have rested := only.rested c.rested
  cases passed : admissionPass e with
  | none => exact ⟨4094, ⟨rested, answer e rfl, report e rfl, front, undue e rfl rfl front, passed⟩, rfl⟩
  | some v =>
    have same := admissionPass_frame e passed
    have front' : v.frontStill := (admissionPass_kept passed).still front
    have admitted := admissionPass_admitted e
    rw [passed, Option.getD_some] at admitted
    refine ⟨4093, ⟨rested.across (by simp [same]) (by simp [same]) (by simp [same]) (by simp [same]) (by simp [same])
      admitted.joined.held, answer v (by simp [same]), report v (by simp [same]), front',
      undue v (by simp [same]) (by simp [same]) front', admitted.pass_none⟩, ?_⟩
    have first : react e = some v := by
      rw [rested.react_eq, answer e rfl, report e rfl, undue e rfl rfl front, passed]
      rfl
    change settle (4095 + 1) e = _
    rw [settle, first]
    rfl

theorem admissionPass_portA (s : State) : ((admissionPass s).getD s).lnk.a.link = s.lnk.a.link ∧
    ((admissionPass s).getD s).lnk.a.received = s.lnk.a.received ∧ ((admissionPass s).getD s).lnk.a.tx = s.lnk.a.tx ∧
    ((admissionPass s).getD s).lnk.sense = s.lnk.sense := by
  cases h : admissionPass s with
  | none => exact ⟨rfl, rfl, rfl, rfl⟩
  | some t => simp [admissionPass_frame s h]

theorem returned_ends {s : State} {x : Tx} (sending : s.lnk.a.tx = some x) (source : x.source = .returnHead) (q : s.frontStill)
    (unbarred : s.rtq.report = none ∨ ¬s.stepWaits) :
    ChainEvent s (s.returned x) (settled (endTransmission .a s)) ∧ (endTransmission .a s).frontStill := by
  have front : (s.returned x).frontStill := frontStill_departed (s := s.setPort .a (s.lnk.a.ended x))
    (setPort_frontStill (fun e => by cases e) q) unbarred
  have kept := compareRet_kept (s.returned x)
  rw [← endTransmission_returnHead sending source] at kept
  exact ⟨.settled kept (.ofSame rfl rfl rfl rfl rfl rfl rfl rfl rfl) front, kept.still front⟩

theorem forwarded_ends {s : State} {x : Tx} (sending : s.lnk.b.tx = some x) (source : x.source = .forwardHead)
    (still : s.headQuiet ∨ s.agentBusy) :
    ChainEvent s (s.forwarded x) (settled (endTransmission .b s)) ∧ (endTransmission .b s).frontStill := by
  have front : (s.forwarded x).frontStill := still.imp (fun quiet y mem => quiet y (List.mem_of_mem_tail mem)) .inl
  have kept := compareFwd_kept (s.forwarded x)
  rw [← endTransmission_forwardHead sending source] at kept
  exact ⟨.settled kept (.ofSame rfl rfl rfl rfl rfl rfl rfl rfl rfl) front, kept.still front⟩

theorem sentUrgent_ends {s : State} {x : Tx} (q : s.frontStill) :
    ChainEvent s (s.sentUrgent x) (settled (s.sentUrgent x)) ∧ (s.sentUrgent x).frontStill :=
  have front : (s.sentUrgent x).frontStill := setPort_frontStill (x := s.lnk.b.ended x) (fun _ => id) q
  ⟨.settled (.refl _) (.ofSame rfl rfl rfl rfl rfl rfl rfl rfl rfl) front, front⟩

/-- Settles O13: each transmission's end, and what follows it. -/
theorem transmissionsEnd : Obligations.TransmissionsEnd := by
  intro time s running q
  refine ⟨fun x sending source unbarred => ?_, fun x sending source still => ?_, fun x sending source => ?_⟩
  · obtain ⟨event, front⟩ := returned_ends (s := s.advance time) sending source q unbarred
    have effect := endTransmission_returnHead (s := s.advance time) sending source
    refine ⟨_, exec_transmissionEnd running, event.chain, event.matrix, fun c up passes agent engine => ?_⟩
    obtain ⟨n, sends, after⟩ := settled_returned (s := s.advance time) sending source front c passes agent engine
    obtain ⟨link, received, tx, sense⟩ := admissionPass_portA (endTransmission .a (s.advance time))
    have idle : (endTransmission .a (s.advance time)).lnk.a.tx = none := by
      rw [effect]
      simp [State.returned, PortState.ended, State.setPort]
    intro e v
    rw [after]
    have link' : e.lnk.a.link = s.lnk.a.link := by simp [e]
    have received' : e.lnk.a.received = s.lnk.a.received := by simp [e]
    have sense' : e.lnk.sense = s.lnk.sense := by simp [e]
    refine ⟨sends.settle_rtq n, fun pause => ?_, fun go => ?_⟩
    · exact settle_txA_paused _ sends.front (received.trans (received'.trans pause)) (tx.trans idle)
    · rw [sends.settle_txA n (link.trans (link'.trans up)) (tx.trans idle) (received.trans (received'.trans go)), State.nextA,
        sense.trans sense']
      rfl
  · obtain ⟨event, front⟩ := forwarded_ends (s := s.advance time) sending source still
    have effect := endTransmission_forwardHead (s := s.advance time) sending source
    refine ⟨_, exec_transmissionEnd running, event.chain, event.matrix, fun f up slot => ?_⟩
    rw [settled_txB front (by simpa using up) (by rw [effect]; simp [State.forwarded, PortState.ended, State.setPort]),
      nextB_urgent (f := f) (by rw [effect]; simpa [State.forwarded] using slot)]
    simp [begun]
  · obtain ⟨event, front⟩ := sentUrgent_ends (s := s.advance time) (x := x) q
    have outcome := exec_transmissionEnd (time := time) (p := .b) running
    rw [endTransmission_urgentSlot (s := s.advance time) sending source] at outcome
    refine ⟨_, outcome, event.chain, event.matrix, fun y l up head released => ?_⟩
    rw [settled_txB front up rfl]
    exact ⟨fun pause => nextB_paused rfl pause, fun go => nextB_head rfl head released go⟩

end Sys2Proof.Machine
end

section
/-! SUPPORT. The chain end: a released head while Port B's link is DOWN (R141, R142). -/

namespace Sys2Proof.Machine

theorem dealAtChainEnd_echo {s : State} {x : FwdEntry} {l : List FwdEntry} (down : s.lnk.b.link = .down)
    (head : s.fwq.queue = x :: l) (released : x.status = .released) (step : x.frame.isStep = true)
    (addressed : s.lnk.transparent = false) (free : s.rtq.echo = none) :
    dealAtChainEnd s = some (departFwd { s with rtq.echo := some (echoOf s.lnk x.frame) }) := by
  simp [dealAtChainEnd, down, head, released, step, addressed, free]

theorem dealAtChainEnd_discard {s : State} {x : FwdEntry} {l : List FwdEntry} (down : s.lnk.b.link = .down)
    (head : s.fwq.queue = x :: l) (released : x.status = .released)
    (other : ¬(x.frame.isStep = true ∧ s.lnk.transparent = false)) :
    dealAtChainEnd s = some (departFwd (countEndDiscard s)) := by
  have ends : (x.frame.isStep && !s.lnk.transparent) = false := by simpa using other
  simp [dealAtChainEnd, down, head, released, ends]

theorem endHold_echo {s t : State} (h : endHold s = some t) : t.rtq.echo = s.rtq.echo := by
  unfold endHold at h
  split at h <;> cases h
  rfl

theorem offerAnswer_echo {s t : State} (h : offerAnswer s = some t) : t.rtq.echo = s.rtq.echo := by
  unfold offerAnswer at h
  split at h <;> cases h
  rfl

theorem offerReport_echo {s t : State} (h : offerReport s = some t) : t.rtq.echo = s.rtq.echo := by
  unfold offerReport at h
  split at h <;> cases h
  simp

/-- One consequence of an event deals with a released head, or leaves the Forward Queue, the end discards and, but for an admission pass,
the ECHO outbox. -/
theorem react_undealt {s t : State} (q : s.frontStill) (h : react s = some t) : dealAtChainEnd s = some t ∨
    (t.fwq = s.fwq ∧ t.lnk.endDiscards = s.lnk.endDiscards ∧ (t.rtq.echo = s.rtq.echo ∨ admissionPass s = some t)) := by
  have early (e : Early s t) : t.fwq = s.fwq ∧ t.lnk.endDiscards = s.lnk.endDiscards ∧
      (t.rtq.echo = s.rtq.echo ∨ admissionPass s = some t) := by
    obtain ⟨lnk, fwq, rtq⟩ := Early.beside e
    exact ⟨fwq, by rw [lnk], .inl (by rw [rtq])⟩
  obtain h | h | h | h | h | h | h | h | h | h | h := react_cases h
  · exact .inr (early (.inl h))
  · exact .inr (early (.inr (.inl h)))
  · exact .inr (early (.inr (.inr ⟨t, chooseVerify_of_still q ▸ h, .inl rfl⟩)))
  · have kept := completeSafe_kept h
    obtain ⟨-, ⟨-, rfl⟩ | ⟨-, rfl⟩⟩ := completeSafe_cases h
    · obtain ⟨x, d, o, eq⟩ := formSafeDrive_eq { s with mdc.redrive := false }
      rw [eq]
      exact .inr ⟨rfl, rfl, .inl rfl⟩
    · exact .inr (by simp)
  · exact .inr (by simp [endHold_frame s h, endHold_echo h])
  · exact .inr (by simp [offerAnswer_frame s h, offerAnswer_echo h])
  · exact .inr (by simp [offerReport_frame s h, offerReport_echo h])
  · exact .inl (examineHead_still q h)
  · exact .inr (by simp [admissionPass_frame s h, h])
  · exact .inr (by simp [startTxB_frame s h])
  · exact .inr (by simp [startTxA_frame s h])

/-- A pass takes nothing from an empty ECHO outbox. -/
theorem admissionPass_echo_none {s t : State} (h : admissionPass s = some t) (free : s.rtq.echo = none) : t.rtq.echo = none := by
  have admitted := admissionPass_admitted s
  rw [h, Option.getD_some] at admitted
  rw [admitted.echo, free]
  simp

/-- What the chain end makes of the released head `x`: the echo of a step frame of an addressed node; otherwise one end discard. -/
def Dealt (s : State) (x : FwdEntry) (u : State) : Prop :=
  (x.frame.isStep = true ∧ s.lnk.transparent = false → u.echoed (echoOf s.lnk x.frame)) ∧
    (¬(x.frame.isStep = true ∧ s.lnk.transparent = false) → u.lnk.endDiscards = countUp s.lnk.endDiscards)

/-- The released head `x` stands at the chain end before an idle agent, and can be dealt with. -/
structure AtChainEnd (x : FwdEntry) (rest : List FwdEntry) (s : State) : Prop where
  quiet : s.headQuiet
  idle : s.mga = .idle
  down : s.lnk.b.link = .down
  head : s.fwq.queue = x :: rest
  released : x.status = .released
  free : x.frame.isStep = true ∧ s.lnk.transparent = false → s.rtq.echo = none

theorem AtChainEnd.deals {x : FwdEntry} {rest : List FwdEntry} {s : State} (h : AtChainEnd x rest s) :
    ∃ t, dealAtChainEnd s = some t ∧ t.fwq.queue = rest ∧ Dealt s x t := by
  by_cases step : x.frame.isStep = true ∧ s.lnk.transparent = false
  · refine ⟨_, dealAtChainEnd_echo h.down h.head h.released step.1 step.2 (h.free step), by simp [h.head], fun _ => ?_,
      fun no => absurd step no⟩
    exact .inl (by simp)
  · exact ⟨_, dealAtChainEnd_discard h.down h.head h.released step, by simp [h.head], fun yes => absurd yes step,
      fun _ => by simp [countEndDiscard]⟩

/-- One consequence of an event deals with the head, or leaves it standing there. -/
theorem AtChainEnd.react {x : FwdEntry} {rest : List FwdEntry} {s t : State} (h : AtChainEnd x rest s)
    (reacts : react s = some t) : (t.fwq.queue = rest ∧ Dealt s x t) ∨
      (AtChainEnd x rest t ∧ t.lnk.endDiscards = s.lnk.endDiscards) := by
  have kept := react_kept (.inl h.quiet) reacts
  rcases react_undealt (.inl h.quiet) reacts with deals | ⟨fwq, discards, echo⟩
  · obtain ⟨v, deal, dealt⟩ := h.deals
    rw [deal] at deals
    cases deals
    exact .inl dealt
  · have addressed : t.lnk.transparent = s.lnk.transparent := by rw [Lnk.transparent, kept.1.straps.1]; rfl
    refine .inr ⟨⟨by unfold State.headQuiet; rw [fwq]; exact h.quiet, kept.1.agentIdle h.idle, kept.1.links.2.trans h.down,
      by rw [fwq]; exact h.head, h.released, fun step => ?_⟩, discards⟩
    have free := h.free (addressed ▸ step)
    rcases echo with same | pass
    · exact same.trans free
    · exact admissionPass_echo_none pass free

/-- Once all consequences are drawn the head is dealt with, and the frames behind it stand. -/
theorem AtChainEnd.settled {x : FwdEntry} {rest : List FwdEntry} {s : State} (h : AtChainEnd x rest s)
    (next : ∀ y ∈ rest.head?, y.status ≠ .released) : (settled s).fwq.queue = rest ∧ Dealt s x (settled s) := by
  have few : s.endings ≤ 1 := by
    unfold State.endings
    rw [h.head, List.takeWhile_cons]
    cases rest with
    | nil => simp [h.released, h.down]
    | cons y l =>
      have other : ¬y.status = .released := next y rfl
      simp [h.released, other, h.down]
  have step : ∀ y z, y.frontStill → ((y.fwq.queue = rest ∧ Dealt s x y) ∨
      (AtChainEnd x rest y ∧ y.lnk.addr = s.lnk.addr ∧ y.lnk.endDiscards = s.lnk.endDiscards)) → Machine.react y = some z →
      (z.fwq.queue = rest ∧ Dealt s x z) ∨
        (AtChainEnd x rest z ∧ z.lnk.addr = s.lnk.addr ∧ z.lnk.endDiscards = s.lnk.endDiscards) := by
    rintro y z q (⟨queue, dealt⟩ | ⟨stands, addr, discards⟩) reacts
    · have kept := (react_kept q reacts).1
      obtain ⟨same, counted⟩ := kept.forwardKept (.inr (by rw [queue]; exact next))
      exact .inl ⟨same.trans queue, fun step => kept.echoes _ (dealt.1 step), fun no => counted.trans (dealt.2 no)⟩
    · rcases stands.react reacts with ⟨queue, dealt⟩ | ⟨stands', discards'⟩
      · have same : echoOf y.lnk x.frame = echoOf s.lnk x.frame := by
          unfold echoOf ownFrame Lnk.addrByte
          rw [addr]
        unfold Dealt Lnk.transparent at dealt
        rw [same, addr, discards] at dealt
        exact .inl ⟨queue, dealt⟩
      · exact .inr ⟨stands', ((react_kept q reacts).1.straps.1).trans addr, discards'.trans discards⟩
  obtain ⟨dealt | ⟨stands, -, -⟩, complete⟩ := settled_reaches (.inl h.quiet) few (.inr ⟨h, rfl, rfl⟩) step
  · exact dealt
  · obtain ⟨t, deal, -⟩ := stands.deals
    obtain ⟨-, -, -, -, -, -, -, undue, -⟩ := complete_parts complete
    rw [(examineHead_eq_none_iff stands.quiet).mp undue stands.idle] at deal
    cases deal

/-- An echo stands in the ECHO outbox with no room in the Return Queue, and the chain end deals with no head before it goes. -/
structure EchoBars (s : State) : Prop where
  quiet : s.headQuiet
  step : ∀ x ∈ s.fwq.queue.head?, x.status = .released → x.frame.isStep = true ∧ s.lnk.transparent = false
  occupied : s.rtq.echo ≠ none
  full : s.outboxRoom = false

theorem EchoBars.react {s t : State} (h : EchoBars s) (reacts : react s = some t) :
    EchoBars t ∧ t.fwq.queue = s.fwq.queue ∧ t.rtq.echo = s.rtq.echo := by
  have kept := (react_kept (.inl h.quiet) reacts).1
  have addressed : t.lnk.transparent = s.lnk.transparent := by rw [Lnk.transparent, kept.straps.1]; rfl
  rcases react_undealt (.inl h.quiet) reacts with deals | ⟨fwq, -, same | pass⟩
  · rw [dealAtChainEnd_eq_none_iff.mpr fun y l _ head released => ?_] at deals
    · cases deals
    · obtain ⟨step, part⟩ := h.step y (by simp [head]) released
      exact ⟨step, part, h.occupied⟩
  · exact ⟨⟨by unfold State.headQuiet; rw [fwq]; exact h.quiet, by rw [fwq, addressed]; exact h.step,
      by rw [same]; exact h.occupied, kept.outboxRoom h.full⟩, by rw [fwq], same⟩
  · simp [admissionPass, State.outboxReady, h.full] at pass

/-- The Forward Queue and the echo stand when the consequences of the event are drawn. -/
theorem EchoBars.settle {s : State} (h : EchoBars s) (n : Nat) :
    (settle n s).fwq.queue = s.fwq.queue ∧ (settle n s).rtq.echo = s.rtq.echo :=
  (settle_keeps (P := EchoBars) (R := fun a b => b.fwq.queue = a.fwq.queue ∧ b.rtq.echo = a.rtq.echo) (fun _ => ⟨rfl, rfl⟩)
    (fun _ _ _ h g => ⟨g.1.trans h.1, g.2.trans h.2⟩) (fun _ _ h reacts => h.react reacts) n s h).2

end Sys2Proof.Machine
end

section
/-! PROOF. A link-down event cuts the transmission and keeps the queued frames (R129, R141 to R143, R147; O7). -/

namespace Sys2Proof.Machine

/-- What a port keeps when its link goes DOWN. -/
def PortState.cut (p : PortState) : PortState := { p with link := .down, received := .go, tx := none, marksWaiting := [] }

/-- Port B's link goes DOWN: the transmission is cut, and the urgent slot is emptied and its frame counted. -/
def State.cutB (s : State) : State :=
  { s.setPort .b s.lnk.b.cut with
    fwq.slot := none
    lnk.endDiscards := if s.fwq.slot.isSome then min (s.lnk.endDiscards + 1) 65535 else s.lnk.endDiscards }

theorem takeDown_a {s : State} (up : s.lnk.a.link = .up) (unflushed : ∀ x, s.lnk.a.tx = some x → x.flushed = false) :
    takeDown .a s = s.setPort .a s.lnk.a.cut := by
  simp only [takeDown, Lnk.port_a, up]
  split
  · next x sending => rw [if_neg (by simp [unflushed x sending])]; rfl
  · rfl

theorem discardUrgent_up {s : State} (up : s.lnk.b.link = .up) : discardUrgent s = s := by
  unfold discardUrgent
  split
  · next down _ => exact absurd (up.symm.trans down) (by decide)
  · rfl

theorem discardUrgent_down {s : State} {f : Frame} (down : s.lnk.b.link = .down) (slot : s.fwq.slot = some f) :
    discardUrgent s = countEndDiscard { s with fwq.slot := none } := by
  unfold discardUrgent
  rw [down, slot]

theorem discardUrgent_free {s : State} (slot : s.fwq.slot = none) : discardUrgent s = s := by
  unfold discardUrgent
  split
  · next _ occupied => rw [slot] at occupied; cases occupied
  · rfl

theorem takeDown_b {s : State} (up : s.lnk.b.link = .up) (unflushed : ∀ x, s.lnk.b.tx = some x → x.flushed = false) :
    takeDown .b s = s.cutB := by
  have cut : takeDown .b s = discardUrgent (s.setPort .b s.lnk.b.cut) := by
    simp only [takeDown, Lnk.port_b, up]
    split
    · next x sending => rw [if_neg (by simp [unflushed x sending])]; rfl
    · rfl
  rw [cut]
  cases empty : s.fwq.slot with
  | none =>
    rw [discardUrgent_free (s := s.setPort .b s.lnk.b.cut) empty]
    obtain ⟨_, _, _, _, _, fwq⟩ := s
    cases fwq
    cases empty
    rfl
  | some f =>
    rw [discardUrgent_down (s := s.setPort .b s.lnk.b.cut) rfl empty, State.cutB, empty]
    rfl

theorem cutB_only (s : State) : ChainOnly s s.cutB := ⟨rfl, rfl, rfl, rfl, rfl, rfl, rfl, rfl, rfl, rfl⟩

/-- The front stays still when Port B's link goes DOWN, unless a released head keeps a frame from being examined. -/
theorem cutB_frontStill {s : State} (q : s.frontStill)
    (firm : s.headQuiet ∨ ∀ x ∈ s.fwq.queue.head?, x.status ≠ .released) : s.cutB.frontStill := by
  rcases firm with quiet | other
  · exact .inl quiet
  · exact frontStill_across (s := s) (t := s.cutB) rfl (fun x mem released => absurd released (other x mem)) ⟨rfl, rfl⟩ rfl rfl rfl
      rfl (fun _ => id) q

theorem cutB_event {s : State} (q : s.cutB.frontStill) : ChainEvent s s.cutB (settled s.cutB) :=
  .settled (.refl _) ((cutB_only s).matrix rfl rfl) q

/-- Settles O7: what a link-down event does at each port, and what becomes of a released head at the chain end. -/
theorem linkDownKeepsTheQueues : Obligations.LinkDownKeepsTheQueues := by
  intro time s running q
  refine ⟨fun up unflushed => ?_, fun up unflushed firm => ?_⟩
  · have effect := takeDown_a (s := s.advance time) up unflushed
    have front := setPort_frontStill (s := s.advance time) (p := .a) (x := s.lnk.a.cut) (fun e => by cases e) q
    have event := ChainEvent.settled (.refl _) (setPort_matrix (s.advance time) .a s.lnk.a.cut) front
    exact ⟨_, congrArg Host.Outcome.next ((event_running _ running).trans (congrArg settled effect)), event.chain, event.matrix,
      ((setPort_only (s.advance time) .a s.lnk.a.cut).still rfl).settled front⟩
  · have effect := takeDown_b (s := s.advance time) up unflushed
    have front := cutB_frontStill (s := s.advance time) q firm
    have event := cutB_event front
    refine ⟨_, congrArg Host.Outcome.next ((event_running _ running).trans (congrArg settled effect)), event.chain, event.matrix,
      ((cutB_only (s.advance time)).still rfl).settled front, fun x rest idle head released next => ?_⟩
    have quiet : s.headQuiet := firm.resolve_right fun other => other x (by simp [head]) released
    have stands (free : x.frame.isStep = true ∧ s.lnk.transparent = false → s.rtq.echo = none) :
        AtChainEnd x rest (s.advance time).cutB := ⟨quiet, idle, rfl, head, released, free⟩
    refine ⟨fun step addressed free => ?_, fun step addressed occupied c => ?_, fun other => ?_⟩
    · obtain ⟨queue, dealt⟩ := (stands fun _ => free).settled next
      exact ⟨queue, dealt.1 ⟨step, addressed⟩⟩
    · have bars : EchoBars (s.advance time).cutB := by
        refine ⟨quiet, fun y mem _ => ?_, occupied, outboxRoom_of_complete (s := s.advance time) c occupied⟩
        have same : s.fwq.queue.head? = some y := mem
        rw [head] at same
        cases same
        exact ⟨step, addressed⟩
      obtain ⟨queue, echo⟩ := bars.settle Config.settleFuel
      exact ⟨queue.trans head, echo⟩
    · have no : ¬(x.frame.isStep = true ∧ s.lnk.transparent = false) := by
        rcases other with other | other <;> simp [other]
      obtain ⟨queue, dealt⟩ := (stands fun yes => absurd yes no).settled next
      refine ⟨queue, (dealt.2 no).trans ?_⟩
      change min ((if s.fwq.slot.isSome then min (s.lnk.endDiscards + 1) 65535 else s.lnk.endDiscards) + 1) 65535 = _
      split <;> omega

end Sys2Proof.Machine
end

section
/-! PROOF. URGENT frames (R136 to R138, R143, R149, R174; O11). -/

namespace Sys2Proof.Machine

/-- The trips that an URGENT frame requests at its arrival. -/
def State.urgentTrips (s : State) (f : Frame) : State :=
  { s with
    mdc.trips := s.mdc.trips ++
      (if f.payload = [0x5A] ∧ (f.dest = s.lnk.addrByte ∨ f.dest = broadcast) ∧ s.lnk.transparent = false
        then [.safeAll] else []) }

theorem urgentTrips_eq {s : State} {f : Frame} (urgent : f.kind = kindUrgent) :
    (if actsOnUrgent s.lnk f then requestTrip .safeAll s else s) = s.urgentTrips f := by
  have acts : actsOnUrgent s.lnk f = true ↔
      f.payload = [0x5A] ∧ (f.dest = s.lnk.addrByte ∨ f.dest = broadcast) ∧ s.lnk.transparent = false := by
    simp [actsOnUrgent, Frame.isSafeAll, urgent, and_assoc]
  by_cases h : actsOnUrgent s.lnk f = true
  · rw [if_pos h, State.urgentTrips, if_pos (acts.mp h)]
    rfl
  · rw [if_neg h, State.urgentTrips, if_neg fun all => h (acts.mpr all), List.append_nil]

theorem latchFlag_urgentTrips (g : Flag) (s : State) (f : Frame) :
    latchFlag g (s.urgentTrips f) = (latchFlag g s).urgentTrips f := by
  unfold latchFlag State.isLatched raiseAlert Lnk.transparent State.urgentTrips
  dsimp only
  repeat' split
  all_goals rfl

theorem receiveUrgent_taken {s : State} {f : Frame} (urgent : f.kind = kindUrgent) (slot : s.fwq.slot = none) :
    receiveUrgent f s = discardUrgent { s.urgentTrips f with fwq.slot := some f } := by
  unfold receiveUrgent
  rw [slot]
  exact congrArg discardUrgent (urgentTrips_eq (s := { s with fwq.slot := some f }) urgent)

theorem receiveUrgent_free {s : State} {f : Frame} (urgent : f.kind = kindUrgent) (up : s.lnk.b.link = .up)
    (slot : s.fwq.slot = none) : receiveUrgent f s = { s.urgentTrips f with fwq.slot := some f } :=
  (receiveUrgent_taken urgent slot).trans (discardUrgent_up up)

theorem receiveUrgent_full {s : State} {f g : Frame} (urgent : f.kind = kindUrgent) (up : s.lnk.b.link = .up)
    (slot : s.fwq.slot = some g) : receiveUrgent f s =
      signal .overflow { s.urgentTrips f with lnk.urgentDrops := min (s.lnk.urgentDrops + 1) 65535 } := by
  obtain ⟨d, dropped⟩ : ∃ d, d = { s with lnk.urgentDrops := countUp s.lnk.urgentDrops } := ⟨_, rfl⟩
  have passed : receiveUrgent f s = discardUrgent ((signal .overflow d).urgentTrips f) := by
    unfold receiveUrgent
    rw [slot, dropped]
    exact congrArg discardUrgent (urgentTrips_eq urgent)
  have up' : ((signal .overflow d).urgentTrips f).lnk.b.link = .up := by
    change (signal .overflow d).lnk.b.link = .up
    simp [dropped, up]
  rw [passed, discardUrgent_up up']
  exact (latchFlag_urgentTrips .overflow d f).symm.trans (by rw [dropped]; rfl)

theorem receiveUrgent_dark {s : State} {f : Frame} (urgent : f.kind = kindUrgent) (down : s.lnk.b.link = .down)
    (slot : s.fwq.slot = none) :
    receiveUrgent f s = { s.urgentTrips f with lnk.endDiscards := min (s.lnk.endDiscards + 1) 65535 } := by
  refine ((receiveUrgent_taken urgent slot).trans (discardUrgent_down down rfl)).trans ?_
  obtain ⟨_, _, _, _, _, fwq⟩ := s
  cases fwq
  cases slot
  rfl

theorem urgentTrips_frontStill {s : State} (f : Frame) (q : s.frontStill) : (s.urgentTrips f).frontStill :=
  frontStill_across (s := s) rfl (fun _ _ _ => id) ⟨rfl, rfl⟩ rfl rfl rfl rfl (fun _ => id) q

theorem exec_urgent {time : Nat} {bs : List Byte} {s : State} (running : s.running) (up : s.lnk.a.link = .up)
    (sound : frameCheckOk s.lnk.sense bs = true) (urgent : (parseFrame bs).kind = kindUrgent) :
    exec (.frameReceived time .a bs) s = .next (settled (receiveUrgent (parseFrame bs) (s.advance time))) :=
  (exec_received (p := .a) running up sound).trans (congrArg (Host.Outcome.next ∘ settled) (if_pos urgent))

/-- Settles O11: an URGENT frame at its arrival with the link UP and DOWN, and the slot at the link-down event. -/
theorem urgentFramesActAtArrival : Obligations.UrgentFramesActAtArrival := by
  refine ⟨fun time bs s running q a up sound urgent => ?_, fun time bs s running q a down slot sound urgent => ?_,
    fun time f s running q up slot firm unflushed => ?_⟩
  · intro f e
    have outcome := exec_urgent (time := time) running a sound urgent
    have front : e.frontStill := urgentTrips_frontStill (s := s.advance time) f q
    cases slot : s.fwq.slot with
    | none =>
      have effect : receiveUrgent f (s.advance time) = { e with fwq.slot := some f } :=
        receiveUrgent_free (s := s.advance time) urgent up slot
      have front' : State.frontStill { e with fwq.slot := some f } :=
        frontStill_across (s := e) rfl (fun _ _ _ => id) ⟨rfl, rfl⟩ rfl rfl rfl rfl (fun _ => id) front
      have event := ChainEvent.settled (s := e) (.refl { e with fwq.slot := some f })
        (.ofSame rfl rfl rfl rfl rfl rfl rfl rfl rfl) front'
      refine ⟨_, outcome.trans (congrArg (Host.Outcome.next ∘ settled) effect), event.matrix, fun _ => event.chain,
        fun _ idle => ?_, fun occupied => absurd rfl occupied⟩
      have bytes : f.wireBytes false s.lnk.sense = bs := wireBytes_parseFrame sound _
      have tx := settled_txB front' up idle
      rw [nextB_urgent (s := { e with fwq.slot := some f }) rfl] at tx
      exact tx.trans (by rw [← bytes]; rfl)
    | some g =>
      have effect : receiveUrgent f (s.advance time) =
          signal .overflow { e with lnk.urgentDrops := min (s.lnk.urgentDrops + 1) 65535 } :=
        receiveUrgent_full (s := s.advance time) urgent up slot
      obtain ⟨event, latched⟩ := dropped_event (s := e)
        (l := { s.lnk with urgentDrops := min (s.lnk.urgentDrops + 1) 65535 }) rfl ⟨rfl, rfl⟩ front
      exact ⟨_, outcome.trans (congrArg (Host.Outcome.next ∘ settled) effect), event.matrix,
        fun free => absurd free (by simp), fun free => absurd free (by simp), fun _ => ⟨event.chain, latched⟩⟩
  · intro f e
    have outcome := exec_urgent (time := time) running a sound urgent
    have effect : receiveUrgent f (s.advance time) = e := receiveUrgent_dark (s := s.advance time) urgent down slot
    have front : e.frontStill :=
      frontStill_across (s := s.advance time) rfl (fun _ _ _ => id) ⟨rfl, rfl⟩ rfl rfl rfl rfl (fun _ => id) q
    have event := ChainEvent.settled (s := e) (.refl e) (.refl e) front
    exact ⟨_, outcome.trans (congrArg (Host.Outcome.next ∘ settled) effect), event.chain.slot.trans slot, event.chain, event.matrix⟩
  · have effect := takeDown_b (s := s.advance time) up unflushed
    have event := cutB_event (cutB_frontStill (s := s.advance time) q firm)
    refine ⟨_, congrArg Host.Outcome.next ((event_running _ running).trans (congrArg settled effect)), event.chain.slot,
      fun other => (event.chain.forwardKept (.inr other)).2.trans ?_⟩
    simp [State.cutB, slot]

end Sys2Proof.Machine
end

section
/-! PROOF. Frames that neither the Step Engine nor the Management Agent takes pass with their bytes (R133, R138, R139, R141; O16). -/

namespace Sys2Proof.Machine

theorem ChainOnly.trans {s t u : State} (h : ChainOnly s t) (g : ChainOnly t u) : ChainOnly s u :=
  ⟨g.now.trans h.now, g.mga.trans h.mga, g.tbs.trans h.tbs, g.rev.trans h.rev, g.ste.trans h.ste, g.csd.trans h.csd,
    g.vfu.trans h.vfu, g.mdc.trans h.mdc, g.response.trans h.response, g.held.trans h.held⟩

/-- A frame, no URGENT one, that arrives at an empty Forward Queue stands there alone. -/
theorem exec_firstReceived {time : Nat} {bs : List Byte} {s : State} (running : s.running) (link : s.lnk.a.link = .up)
    (empty : s.fwq.queue = []) (sound : frameCheckOk s.lnk.sense bs = true) (other : (parseFrame bs).kind ≠ kindUrgent) :
    ∃ m w l, exec (.frameReceived time .a bs) s =
      .next (settled ((s.advance time).requeued m w l [arrivedEntry bs])) := by
  obtain ⟨m, w, l, -, appended⟩ := appendFwd_first (parseFrame bs) (s.advance time) empty
  refine ⟨m, w, l, (exec_received (p := .a) running link sound).trans (congrArg (Host.Outcome.next ∘ settled) ?_)⟩
  have room : (s.advance time).fwq.queue.length < Config.fwdCapacity := by simp [empty, Config.fwdCapacity]
  exact (if_neg other).trans ((if_pos room).trans appended)

/-- A frame that is neither a step frame nor a request for this node is released at its examination (R139). -/
theorem treatHead_passed {s : State} {x : FwdEntry} (other : x.frame.isStep = false)
    (foreign : x.frame.kind ≠ kindRequest ∨ (x.frame.dest ≠ s.lnk.addrByte ∧ x.frame.dest ≠ broadcast) ∨
      s.lnk.transparent = true) : treatHead x s = some (releaseHead x s) := by
  have none_ : requestFor s.lnk x.frame s.lnk.addrByte = false ∧ requestFor s.lnk x.frame broadcast = false := by
    rcases foreign with h | h | h <;> simp [requestFor, h]
  simp [treatHead, other, none_]

/-- After the release of a lone frame that makes no echo the transmitters alone have something to do. -/
theorem releaseHead_onlySends {s r : State} {x : FwdEntry} (c : s.complete) (only : ChainOnly s r) (rtq : r.rtq = s.rtq)
    (margin : r.lnk.margin = s.lnk.margin) (alone : r.fwq.queue.tail = [])
    (other : x.frame.isStep = false ∨ r.lnk.transparent = true) :
    (releaseHead x r).OnlySends ∧ (releaseHead x r).rtq = s.rtq := by
  obtain ⟨-, -, -, -, -, answer, report, -, pass, -⟩ := complete_parts c
  have rtq' : (releaseHead x r).rtq = s.rtq := by
    rw [← rtq]
    cases link : r.lnk.b.link with
    | up => simp [releaseHead_up link]
    | down =>
      have no : (x.frame.isStep && !r.lnk.transparent) = false := by rcases other with h | h <;> simp [h]
      simp [releaseHead, dealAtChainEnd, link, no, countEndDiscard]
  have quiet : (releaseHead x r).headQuiet := by
    intro y hy
    rcases releaseHead_queue x r with h | ⟨-, h⟩ <;> simp [h, alone] at hy
    simp [hy]
  have settles : dealAtChainEnd (releaseHead x r) = none := dealAtChainEnd_eq_none_iff.mpr fun y l down head _ => by
    have down' : r.lnk.b.link = .down := by simpa using down
    rw [(releaseHead_discard down' other).1, alone] at head
    cases head
  have only' : ChainOnly s (releaseHead x r) :=
    only.trans ⟨by simp, by simp, by simp, by simp, by simp, by simp, by simp, by simp, by simp, by simp⟩
  exact ⟨⟨only'.rested c.rested, offerAnswer_congr only'.mga only'.response answer,
    offerReport_congr only'.ste (by rw [rtq']) report, .inl quiet, (examineHead_eq_none_iff quiet).mpr fun _ => settles,
    admissionPass_congr rtq' (by simpa using margin) pass⟩, rtq'⟩

/-- Settles O16: the frame is released with its bytes, and sent, or discarded at the chain end. -/
theorem framesPassUntouched : Obligations.FramesPassUntouched := by
  intro time bs s open_ sound other noStep foreign
  obtain ⟨m, w, l, ran⟩ := exec_firstReceived (time := time) open_.running open_.link open_.empty sound other
  obtain ⟨r, arrived⟩ : ∃ r, r = (s.advance time).requeued m w l [arrivedEntry bs] := ⟨_, rfl⟩
  have treated : treatHead (arrivedEntry bs) r = some (releaseHead (arrivedEntry bs) r) :=
    treatHead_passed noStep (by rw [arrived]; exact foreign)
  rw [arrived] at treated
  rw [settled_treated open_.complete open_.idle m w l rfl treated, ← arrived] at ran
  obtain ⟨kept, still⟩ := requeued_kept (s.advance time) m w l [arrivedEntry bs]
  have calm := requeued_calm (calm_of_complete open_.complete) m w l [arrivedEntry bs]
  have only := ChainOnly.requeued (s.advance time) m w l [arrivedEntry bs]
  rw [← arrived] at kept still calm only
  have sent := releaseHead_sentOn (x := arrivedEntry bs) (by rw [arrived]; rfl) calm 4095
  obtain ⟨sends, rtq⟩ := releaseHead_onlySends open_.complete only (by rw [arrived]; rfl) (by rw [arrived]; rfl)
    (by rw [arrived]; rfl) (x := arrivedEntry bs) (.inl noStep)
  have chain := (settle_kept 4095 _ sends.front).1
  refine ⟨_, ran, kept.trans sent.matrix, still.trans sent.still, (sends.settle_rtq 4093).trans rtq,
    chain.agentIdle (by simp [arrived, State.requeued, open_.idle]), fun up => ⟨?_, ?_, fun idle go slot => ?_⟩, fun down => ?_⟩
  · exact sent.forwarded (by rw [arrived]; exact up)
  · rw [(chain.forwardKept (.inl (by simp [arrived, State.requeued, up]))).2]
    have up' : r.lnk.b.link = .up := by rw [arrived]; exact up
    rw [releaseHead_up up', arrived]
    rfl
  · have up' : r.lnk.b.link = .up := by rw [arrived]; exact up
    have bytes : (parseFrame bs).wireBytes false s.lnk.sense = bs := wireBytes_parseFrame sound _
    have tx := sends.settle_txB 4093 (by simpa using up') (by simp [arrived, State.requeued, idle])
    rw [releaseHead_up up', nextB_head (s := setHead _ r) (by rw [arrived]; exact slot) rfl rfl (by rw [arrived]; exact go)] at tx
    rw [releaseHead_up up', tx, arrived]
    exact congrArg (fun b => some (begun .forwardHead b)) bytes
  · obtain ⟨gone, counted⟩ := sent.discarded (by rw [arrived]; exact down) (.inl noStep)
    exact ⟨gone, counted.trans (by rw [arrived]; rfl)⟩

end Sys2Proof.Machine
end

section
/-! SUPPORT. What the service of a request leaves of the chain side and of the agent, whatever the request is (R139, R140, R151). -/

namespace Sys2Proof.Machine

/-- What a part of a service leaves alone before the answer is built: the agent and its outbox, the queues, Port B's link and the
straps. -/
structure Unanswered (s t : State) : Prop where
  queue : (∀ x ∈ s.fwq.queue.head?, x.status ≠ .held) → t.fwq.queue = s.fwq.queue
  agent : t.mga = s.mga
  response : t.rtq.response = s.rtq.response
  held : t.rtq.responseHeld = s.rtq.responseHeld
  back : t.rtq.queue = s.rtq.queue
  link : t.lnk.b.link = s.lnk.b.link
  addr : t.lnk.addr = s.lnk.addr
  margin : t.lnk.margin = s.lnk.margin

theorem Unanswered.refl (s : State) : Unanswered s s := ⟨fun _ => rfl, rfl, rfl, rfl, rfl, rfl, rfl, rfl⟩

theorem Unanswered.trans {s t u : State} (h : Unanswered s t) (g : Unanswered t u) : Unanswered s u :=
  ⟨fun free => (g.queue (by rwa [h.queue free])).trans (h.queue free), g.agent.trans h.agent, g.response.trans h.response,
    g.held.trans h.held, g.back.trans h.back, g.link.trans h.link, g.addr.trans h.addr, g.margin.trans h.margin⟩

theorem Unanswered.ofChain {s t : State} (agent : t.mga = s.mga)
    (outbox : t.rtq.response = s.rtq.response ∧ t.rtq.responseHeld = s.rtq.responseHeld ∧ t.rtq.queue = s.rtq.queue)
    (fwq : t.fwq = s.fwq) (lnk : t.lnk = s.lnk) : Unanswered s t :=
  ⟨fun _ => by rw [fwq], agent, outbox.1, outbox.2.1, outbox.2.2, by rw [lnk], by rw [lnk], by rw [lnk]⟩

/-- A request in service stays in service, or its answer is on its way; it waits for an occupied RESPONSE outbox. -/
structure InService (r : Request) (s t : State) : Prop where
  held : t.rtq.responseHeld = s.rtq.responseHeld
  back : t.rtq.queue = s.rtq.queue
  queue : (∀ x ∈ s.fwq.queue.head?, x.status ≠ .held) → t.fwq.queue = s.fwq.queue
  link : t.lnk.b.link = s.lnk.b.link
  margin : t.lnk.margin = s.lnk.margin
  owed : t.mga = .serving r ∨ ∃ x, t.answered (answerFrame s.lnk r x)
  occupied : ∀ f, s.rtq.response = some f → t.rtq.response = some f ∧ (t.mga = .serving r ∨ ∃ g, t.mga = .answerWait g)

theorem Unanswered.owes {r : Request} {s t : State} (h : Unanswered s t) (serving : s.mga = .serving r) : InService r s t :=
  ⟨h.held, h.back, h.queue, h.link, h.margin, .inl (h.agent.trans serving),
    fun _ waits => ⟨h.response.trans waits, .inl (h.agent.trans serving)⟩⟩

theorem Unanswered.answers {r : Request} {s t : State} (h : Unanswered s t) (serving : s.mga = .serving r) (x : Result) :
    InService r s (answer x t) := by
  have offered := (answer_offered x (h.agent.trans serving)).1.answered
  rw [answerFrame_congr h.addr] at offered
  refine ⟨(answer_held x t).trans h.held, (answer_requesterKept x t).chain.2.2.1.trans h.back, fun free => by simpa using h.queue free,
    by simpa using h.link, by simpa using h.margin, .inr ⟨x, offered⟩, fun f waits => ?_⟩
  have waits' := h.response.trans waits
  simp [answer, h.agent, serving, placeAnswer, waits']

/-! ## LOAD and FETCH (R153, R156) -/

theorem handSignals_unanswered (rf door : Bool) (s : State) : Unanswered s (handSignals rf door s) := by
  have handed : Unanswered s (handRf rf s) := by
    obtain h | ⟨-, h⟩ | h := handRf_cases rf s <;> rw [h]
    · exact .refl s
    · exact .ofChain (by simp) (by simp) (by simp) (by simp)
    · exact .ofChain (by simp) (by simp) (by simp) (by simp)
  refine handed.trans ?_
  unfold handSignals handDoor
  split
  · exact .ofChain (by simp) (by simp) (by simp) (by simp)
  · exact .refl _

theorem storeRecord_unanswered {t : TableId} {i : Nat} {bs : List Byte} {s u : State} (h : storeRecord t i bs s = .ok u) :
    Unanswered s u := by
  cases t with
  | cls =>
    obtain ⟨x, -, -, rfl⟩ := storeClass_ok_iff.mp h
    exact ⟨fun _ => rfl, rfl, rfl, rfl, rfl, rfl, rfl, rfl⟩
  | element =>
    obtain ⟨x, -, -, rfl⟩ := storeElement_ok_iff.mp h
    exact ⟨fun _ => rfl, rfl, rfl, rfl, rfl, rfl, rfl, rfl⟩
  | core =>
    unfold storeRecord storeCore at h
    cases decoded : decodeCore bs with
    | error f => simp [decoded, fieldNak, bind, Except.bind] at h
    | ok x =>
      simp only [decoded, fieldNak, bind, Except.bind, pure, Except.pure, throw, throwThe, MonadExceptOf.throw] at h
      split at h <;> cases h
      exact ⟨fun _ => rfl, rfl, rfl, rfl, rfl, rfl, rfl, rfl⟩
  | aux =>
    obtain ⟨x, -, rfl⟩ := plainStore_ok_iff.mp h
    have stored : Unanswered s { s with axu.records := s.axu.records.set (Fin.ofNat 4 i) x } :=
      ⟨fun _ => rfl, rfl, rfl, rfl, rfl, rfl, rfl, rfl⟩
    exact stored.trans (handSignals_unanswered _ _ _)
  | link | interlock | eloss | tcorr | grid | runtime | wear | path =>
    obtain ⟨x, -, rfl⟩ := plainStore_ok_iff.mp h
    exact ⟨fun _ => rfl, rfl, rfl, rfl, rfl, rfl, rfl, rfl⟩
  | position | status | route => cases h

theorem storeRecord_of_loadRecord {t : TableId} {i : Nat} {bs : List Byte} {s u : State} (h : loadRecord t i bs s = .ok u) :
    storeRecord t i bs s = .ok u := by
  unfold loadRecord at h
  split at h
  · cases h
  · split at h
    · cases h
    · split at h
      · cases h
      · exact h

/-! ## Changes of mode (R114, R119, R124) -/

theorem enterEntry_unanswered (o : EntryOrigin) (q : EntryRequest) (s : State) : Unanswered s (enterEntry o q s) := by
  obtain ⟨p, alert, entered⟩ := enterEntry_eq o q s
  rw [entered]
  exact ⟨fun _ => rfl, rfl, rfl, rfl, rfl, rfl, rfl, rfl⟩

theorem enterConfigMode_unanswered (s : State) : Unanswered s (enterConfigMode s) := by
  obtain ⟨c, alert, entered, -⟩ := enterConfigMode_eq s
  rw [entered]
  exact ⟨fun _ => rfl, rfl, rfl, rfl, rfl, rfl, rfl, rfl⟩

theorem enterSafeMode_unanswered (s : State) : Unanswered s (enterSafeMode s) := by
  obtain ⟨agent, response, held, -⟩ := (enterSafeMode_carried s).agent
  obtain ⟨c, v, a, f, entered, -⟩ := enterSafeMode_eq s
  have abandoned : s.abandoned.rtq.queue = s.rtq.queue ∧ s.abandoned.lnk.margin = s.lnk.margin := by
    unfold State.abandoned abandonForSafe
    split
    · obtain ⟨-, -, -, -, -, -, -, -, rtq, -⟩ := finishStep_marks .abandonedSafe (endingAt .abandonedSafe s.entering)
      rw [endStep_eq_finish]
      refine ⟨?_, by simp [State.entering]⟩
      rw [rtq]
      simp [endingAt_rtq, State.entering]
    · exact ⟨rfl, rfl⟩
  refine ⟨enterSafeMode_queue, agent, response, held, ?_, ?_, enterSafeMode_addr s, ?_⟩ <;> rw [entered]
  exacts [abandoned.1, abandoned_link s, abandoned.2]

section
variable {r : Request} {s : State} (serving : s.mga = .serving r)
include serving

theorem serveLoad_inService (t : TableId) (i : Nat) (bs : List Byte) : InService r s (serveLoad t i bs s) := by
  unfold serveLoad
  split
  · next u loaded =>
    exact (storeRecord_unanswered (storeRecord_of_loadRecord loaded)).answers serving _
  · exact (Unanswered.refl s).answers serving _

theorem serveFetch_inService (t : TableId) (i : Nat) : InService r s (serveFetch t i s) := by
  have chosen : Unanswered s (if t = .route then s.chose else s) := by
    split
    · exact ⟨fun _ => rfl, rfl, rfl, rfl, rfl, rfl, rfl, rfl⟩
    · exact .refl s
  unfold serveFetch
  split
  · exact chosen.answers serving _
  · exact (Unanswered.refl s).answers serving _

/-! ## The commands (R109, R123 to R125, R162, R163, R104, R105) -/

theorem serveCommand_inService {c : Command} (other : c ≠ .softReset) (arg : List Byte) : InService r s (serveCommand c arg s) := by
  have stands := Unanswered.refl s
  cases c with
  | enterRun =>
    unfold serveCommand serveEnterRun
    dsimp only
    split
    · exact stands.answers serving _
    · exact Unanswered.owes (t := { s with mdc.validating := some s.now }) ⟨fun _ => rfl, rfl, rfl, rfl, rfl, rfl, rfl, rfl⟩ serving
  | enterConfig =>
    unfold serveCommand serveEnterConfig
    dsimp only
    split
    · exact (enterConfigMode_unanswered s).answers serving _
    · exact stands.answers serving _
  | enterSafe =>
    unfold serveCommand serveEnterSafe
    dsimp only
    split
    · exact (enterSafeMode_unanswered s).answers serving _
    all_goals exact stands.answers serving _
  | resume =>
    unfold serveCommand serveResume
    dsimp only
    split
    · exact stands.answers serving _
    · exact (enterEntry_unanswered .safe .resume s).owes serving
  | verifyAll => exact Unanswered.owes (t := serveVerifyAll s) ⟨fun _ => rfl, rfl, rfl, rfl, rfl, rfl, rfl, rfl⟩ serving
  | verifyBank =>
    unfold serveCommand serveVerifyBank
    dsimp only
    split
    · next inRange =>
      split
      · exact stands.answers serving _
      · split
        · exact stands.answers serving _
        · exact Unanswered.owes (t := { s with vfu.inHand := some (.bank ⟨_, inRange⟩) })
            ⟨fun _ => rfl, rfl, rfl, rfl, rfl, rfl, rfl, rfl⟩ serving
    · exact stands.answers serving _
  | readClearEvents =>
    have cleared (mask : BitVec 16) : Unanswered s (clearFlags mask s) := .ofChain (by simp) (by simp) (by simp) (by simp)
    exact (cleared _).answers serving _
  | clearCounters =>
    unfold serveCommand serveClearCounters
    refine Unanswered.answers ?_ serving _
    exact ⟨fun _ => rfl, rfl, rfl, rfl, rfl, rfl, rfl, rfl⟩
  | setMarker =>
    unfold serveCommand serveSetMarker
    refine Unanswered.answers ?_ serving _
    exact ⟨fun _ => rfl, rfl, rfl, rfl, rfl, rfl, rfl, rfl⟩
  | softReset => exact absurd rfl other

theorem serve_inService {d : Decoded} (other : ∀ arg, d ≠ .command .softReset arg) : InService r s (serve d s) := by
  cases d with
  | load t i bs => exact serveLoad_inService serving t i bs
  | fetch t i => exact serveFetch_inService serving t i
  | command c arg => exact serveCommand_inService serving (fun same => other arg (by rw [same])) arg

end

/-! ## SOFT_RESET (R150, R165, R166) -/

/-- A SOFT_RESET in service with an empty Forward Queue: its answer stands in the RESPONSE outbox, held while a pulse is in flight. -/
theorem serveSoftReset_ends {r : Request} {s : State} (serving : s.mga = .serving r) (empty : s.fwq.queue = []) :
    (serveSoftReset s).fwq.queue = [] ∧ ∃ x, (serveSoftReset s).rtq.response = some (answerFrame s.lnk r x) ∧
      ((serveSoftReset s).rtq.responseHeld = false ∨
        ((serveSoftReset s).rtq.responseHeld = true ∧ (serveSoftReset s).csd.anyInFlight = true ∧
          (serveSoftReset s).mga = .serving r)) := by
  obtain ⟨z, flushed⟩ : ∃ z, z = flushChain (resetEvents (resetVerify (resetCoil (resetEngine (resetMode s))))) := ⟨_, rfl⟩
  have before : (resetEvents (resetVerify (resetCoil (resetEngine (resetMode s))))).fwq = s.fwq := by
    simp [resetEvents, resetVerify, resetCoil]
  have queue : z.fwq.queue = [] := by
    rw [flushed]
    simp [flushChain, before, empty]
  have held : z.rtq.responseHeld = false := by
    rw [flushed]
    simp [flushChain]
  have agent : z.mga = .serving r := by
    rw [flushed]
    simp [resetEvents, resetVerify, resetCoil, serving]
  have addr : z.lnk.addr = s.lnk.addr := by
    rw [flushed]
    simp [resetEvents, resetVerify, resetCoil]
  have reset : serveSoftReset s = answerReset z := by rw [flushed]; rfl
  rw [reset]
  unfold answerReset
  rw [agent]
  dsimp only
  split
  · next flies => exact ⟨queue, _, by rw [answerFrame_congr addr], .inr ⟨rfl, flies, rfl⟩⟩
  · exact ⟨queue, _, by rw [answerFrame_congr addr], .inl held⟩

/-! ## The handing (R139, R140) -/

/-- The request as the agent holds it. -/
abbrev Frame.request (f : Frame) : Request := { tag := f.tag, payload := f.payload }

/-- A request stays in service, or its answer is on its way, where the outbox is not held. -/
def State.attends (s : State) (l : Lnk) (r : Request) : Prop :=
  s.mga = .serving r ∨ ∃ x, s.answered (answerFrame l r x)

theorem KeptChain.attends {s u : State} (k : KeptChain s u) (unheld : s.rtq.responseHeld = false) {l : Lnk} {r : Request}
    (h : s.attends l r) : u.attends l r :=
  h.imp (k.agentServing unheld r) fun ⟨x, answered⟩ => ⟨x, k.answers unheld _ answered⟩

/-- A request that is no SOFT_RESET, handed to the agent. -/
theorem handRequest_inService {f : Frame} {s : State} (other : asksSoftReset f = false) :
    InService f.request { s with mga := .serving f.request } (handRequest f s) := by
  cases decoded : decodeRequest f.payload with
  | error n =>
    have refused : handRequest f s = answer (.nak n) { s with mga := .serving f.request } := by simp [handRequest, decoded]
    rw [refused]
    exact (Unanswered.refl _).answers rfl _
  | ok d =>
    rw [handRequest_ok f s decoded]
    refine serve_inService (s := { s with mga := .serving f.request }) rfl fun arg same => ?_
    simp [asksSoftReset, decoded, same] at other

/-- A request handed with the Forward Queue empty. -/
theorem handRequest_alone {f : Frame} {s : State} (n : Nat) (empty : s.fwq.queue = []) (unheld : s.rtq.responseHeld = false) :
    (settle n (handRequest f s)).fwq.queue = [] ∧ (settle n (handRequest f s)).attends s.lnk f.request := by
  have gone (t : State) (queue : t.fwq.queue = []) : t.frontStill ∧ (settle n t).fwq.queue = [] := by
    have quiet : t.headQuiet := by
      intro y mem
      rw [queue] at mem
      cases mem
    exact ⟨.inl quiet, List.suffix_nil.mp (queue ▸ (settle_kept n t (.inl quiet)).1.forward)⟩
  by_cases reset : asksSoftReset f = true
  · obtain ⟨arg, decoded⟩ : ∃ arg, decodeRequest f.payload = .ok (.command .softReset arg) := by
      unfold asksSoftReset at reset
      split at reset
      · next arg decoded => exact ⟨arg, decoded⟩
      · cases reset
    rw [handRequest_ok f s decoded]
    change (settle n (serveSoftReset { s with mga := .serving f.request })).fwq.queue = [] ∧ _
    obtain ⟨queue, x, response, held⟩ := serveSoftReset_ends (s := { s with mga := .serving f.request }) rfl empty
    obtain ⟨still, gone⟩ := gone _ queue
    have k := (settle_kept n _ still).1
    refine ⟨gone, ?_⟩
    rcases held with free | ⟨holds, flies, serving⟩
    · exact k.attends free (.inr ⟨x, .inr (.inl response)⟩)
    · exact .inl ((k.held holds flies _ serving).2.2.1.trans serving)
  · have other : asksSoftReset f = false := by simpa using reset
    obtain ⟨held, -, queue, -, -, owed, -⟩ := handRequest_inService (f := f) (s := s) other
    obtain ⟨still, gone⟩ := gone _ ((queue (by simp [empty])).trans empty)
    exact ⟨gone, (settle_kept n _ still).1.attends (held.trans unheld) owed⟩

/-- A broadcast request that is no SOFT_RESET, handed with Port B's link UP: the frame stands released, and the agent has the copy. -/
theorem handBroadcast_inService {x : FwdEntry} {s : State} (up : s.lnk.b.link = .up) (other : asksSoftReset x.frame = false) :
    InService x.frame.request { setHead { x with status := .released } s with mga := .serving x.frame.request }
      (handBroadcast x s) := by
  obtain ⟨r, released⟩ : ∃ r, r = setHead { x with status := .released } s := ⟨_, rfl⟩
  have served := handRequest_inService (f := x.frame) (s := r) other
  have link : (handRequest x.frame r).lnk.b.link = .up := served.link.trans (by rw [released]; exact up)
  have handed : handBroadcast x s = handRequest x.frame r := by
    have undealt : dealAtChainEnd (handRequest x.frame r) = none := by simp [dealAtChainEnd, link]
    unfold handBroadcast
    rw [beginCopy_other other, ← released]
    dsimp only
    rw [undealt]
    rfl
  rw [handed, ← released]
  exact served

/-- Once all consequences are drawn. -/
theorem handBroadcast_alone {x : FwdEntry} {s : State} (n : Nat) (up : s.lnk.b.link = .up) (alone : s.fwq.queue.tail = [])
    (unheld : s.rtq.responseHeld = false) (other : asksSoftReset x.frame = false) :
    (settle n (handBroadcast x s)).fwq.queue = [{ x with status := .released }] ∧
      (settle n (handBroadcast x s)).attends s.lnk x.frame.request := by
  obtain ⟨held, -, queue, link, -, owed, -⟩ := handBroadcast_inService (x := x) up other
  have link' : (handBroadcast x s).lnk.b.link = .up := link.trans up
  have stands : (handBroadcast x s).fwq.queue = [{ x with status := .released }] :=
    (queue (by simp)).trans (by simp [alone])
  have still : (handBroadcast x s).frontStill := .inr (.inr (.inl ⟨_, _, stands, .inr ⟨rfl, link'⟩⟩))
  have k := (settle_kept n _ still).1
  exact ⟨(k.forwardKept (.inl link')).1.trans stands, k.attends (held.trans unheld) owed⟩

end Sys2Proof.Machine
end

section
/-! SUPPORT. The examination of a waiting head by an idle agent where nothing else is due before it (R48 to R51, R139, R140). -/

namespace Sys2Proof.Machine

/-- The step of the head `y` has been taken by its path record `p`. -/
structure Took (y : FwdEntry) (rest : List FwdEntry) (p : PathRec) (u : State) : Prop where
  queue : u.fwq.queue = { y with status := .held } :: rest
  state : u.ste.st = .checking
  snapshot : u.ste.snapshot = some p
  takeAt : u.ste.takeAt = u.now
  ident : u.ste.ident = some (identOf y.frame)

/-- A step that has been taken stays as it was taken while the consequences of the event are drawn. -/
theorem Took.settle {y : FwdEntry} {rest : List FwdEntry} {p : PathRec} {t : State} (h : Took y rest p t) (n : Nat) :
    Took y rest p (settle n t) := by
  have still : t.frontStill := .inr (.inr (.inl ⟨_, _, h.queue, .inl rfl⟩))
  obtain ⟨chain, matrix⟩ := settle_kept n t still
  have stands := matrix.step (.inl (by rw [h.state]; decide))
  obtain ⟨ident, snapshot, -⟩ := stands.step
  refine ⟨(chain.forwardKept (.inr (by simp [h.queue]))).1.trans h.queue, matrix.state h.state (by decide),
    snapshot.trans h.snapshot, ?_, ident.trans h.ident⟩
  rw [matrix.result.2.2, chain.now, h.takeAt]

theorem take_took {y : FwdEntry} {rest : List FwdEntry} {p : PathRec} {s : State} (queue : s.fwq.queue = y :: rest)
    (path : s.tbs.paths[y.frame.stepIndex.toNat]'(y.frame.stepIndex.isLt) = some p) : Took y rest p (take y s) := by
  rw [take_present path]
  exact ⟨by rw [takeRecord_queue, queue]; rfl, rfl, rfl, rfl, rfl⟩

/-- The agent is idle, and a frame waits at the head with Port B's link UP. -/
structure HeadOpen (y : FwdEntry) (rest : List FwdEntry) (s : State) : Prop where
  idle : s.mga = .idle
  unheld : s.rtq.responseHeld = false
  up : s.lnk.b.link = .up
  queue : s.fwq.queue = y :: rest
  waiting : y.status = .waiting

/-- An idle agent's side treats a head that waits (R139). -/
theorem examineHead_waiting {y : FwdEntry} {rest : List FwdEntry} {s : State} (idle : s.mga = .idle)
    (queue : s.fwq.queue = y :: rest) (waiting : y.status = .waiting) : examineHead s = treatHead y s := by
  unfold examineHead
  rw [idle, queue]
  dsimp only
  rw [waiting]

/-- The treatment of the head is the first consequence that is due. -/
theorem HeadOpen.settle_treated {y : FwdEntry} {rest : List FwdEntry} {s t : State} (h : HeadOpen y rest s) (rested : s.Rested)
    (report : offerReport s = none) (treated : treatHead y s = some t) (n : Nat) : settle (n + 1) s = settle n t := by
  have answer : offerAnswer s = none := by simp [offerAnswer, h.idle]
  have first : react s = some t := by
    rw [rested.react_eq, answer, report, examineHead_waiting h.idle h.queue h.waiting, treated]
    rfl
  rw [settle, first]

theorem settle_released {x : FwdEntry} {rest : List FwdEntry} {s : State} (up : s.lnk.b.link = .up)
    (rests : s.fwq.queue.tail = rest) (n : Nat) :
    (settle n (releaseHead x s)).fwq.queue = { x with status := .released } :: rest := by
  rw [releaseHead_up up]
  have queue : (setHead { x with status := .released } s).fwq.queue = { x with status := .released } :: rest := by
    rw [setHead_queue, rests]
  have still : (setHead { x with status := .released } s).frontStill := .inr (.inr (.inl ⟨_, _, queue, .inr ⟨rfl, up⟩⟩))
  exact ((settle_kept n _ still).1.forwardKept (.inl up)).1.trans queue

/-- The broadcast address is no node's address (R134). -/
theorem requestFor_all {l : Lnk} {f : Frame} (all : f.dest = broadcast) (addressed : l.transparent = false) :
    requestFor l f l.addrByte = false := by
  have other : broadcast ≠ l.addrByte := by
    simp only [Lnk.transparent, Bool.or_eq_false_iff, beq_eq_false_iff_ne] at addressed
    unfold broadcast Lnk.addrByte
    bv_omega
  simp [requestFor, all, other]

/-- What the examination leaves, by the kind of the head. -/
theorem HeadOpen.examined {y : FwdEntry} {rest : List FwdEntry} {s : State} (h : HeadOpen y rest s) (rested : s.Rested)
    (report : offerReport s = none) (n : Nat) : Examined s y rest (settle (n + 1) s) where
  other noStep foreign := by
    rw [h.settle_treated rested report (treatHead_passed noStep foreign)]
    exact settle_released h.up (by rw [h.queue]; rfl) n
  skipped step skips := by
    rw [h.settle_treated rested report (treatHead_skipped step skips)]
    exact settle_released h.up (by rw [h.queue]; rfl) n
  taken p step run addressed idle clear path := by
    have treated : treatHead y s = some (take y s) := (treatHead_offered step run addressed).trans (offerStep_idle idle clear y)
    rw [h.settle_treated rested report treated]
    obtain ⟨queue, state, snapshot, takeAt, ident⟩ := (take_took h.queue path).settle n
    exact ⟨queue, state, snapshot, takeAt, ident⟩
  waits step run addressed bars := by
    have barred : s.stepBarred y.frame := bars.imp_right (Or.imp_right fun holds => .inl ⟨holds.1, .inl holds.2⟩)
    have still : s.frontStill := .inr (.inr (.inr ⟨run, addressed, y, rest, h.queue, h.waiting, step, barred⟩))
    exact ((settle_kept _ s still).1.forwardKept (.inl h.up)).1.trans h.queue
  handed request own addressed alone := by
    have noStep : y.frame.isStep = false := by simp [Frame.isStep, request, kindRequest, kindStep]
    have asks : requestFor s.lnk y.frame s.lnk.addrByte = true := by simp [requestFor, request, own, addressed]
    have treated : treatHead y s = some (handRequest y.frame (departFwd s)) := by simp [treatHead, noStep, asks]
    rw [h.settle_treated rested report treated]
    obtain ⟨queue, attends⟩ := handRequest_alone (f := y.frame) (s := departFwd s) n (by simp [h.queue, alone])
      (by simp [h.unheld])
    refine ⟨queue, attends.imp_right fun ⟨x, answered⟩ => ⟨x, ?_⟩⟩
    rwa [answerFrame_congr (l := s.lnk) (by simp)] at answered
  toAll request all addressed alone other := by
    have noStep : y.frame.isStep = false := by simp [Frame.isStep, request, kindRequest, kindStep]
    have mine := requestFor_all all addressed
    have asks : requestFor s.lnk y.frame broadcast = true := by simp [requestFor, request, all, addressed]
    have treated : treatHead y s = some (handBroadcast y s) := by simp [treatHead, noStep, mine, asks]
    rw [h.settle_treated rested report treated]
    exact handBroadcast_alone n h.up (by rw [h.queue, alone]; rfl) h.unheld other

/-- What the examination leaves, seen from a state with the same mode, step, latch list, path records and address. -/
theorem Examined.congr {s w u : State} {y : FwdEntry} {rest : List FwdEntry} (addr : w.lnk.addr = s.lnk.addr)
    (mode : w.mdc.mode = s.mdc.mode) (state : w.ste.st = s.ste.st) (latch : w.csd.latch = s.csd.latch)
    (paths : w.tbs.paths = s.tbs.paths) (h : Examined w y rest u) : Examined s y rest u := by
  have byte : w.lnk.addrByte = s.lnk.addrByte := by rw [Lnk.addrByte, addr]; rfl
  have transparent : w.lnk.transparent = s.lnk.transparent := by rw [Lnk.transparent, addr]; rfl
  have holds : w.ste.holdsStep = s.ste.holdsStep := by unfold Ste.holdsStep; rw [state]
  have frames (r : Request) (x : Result) : answerFrame w.lnk r x = answerFrame s.lnk r x := answerFrame_congr addr r x
  obtain ⟨other, skipped, taken, waits, handed, toAll⟩ := h
  simp only [byte, transparent, mode, state, latch, holds, frames, paths] at other skipped taken waits handed toAll
  exact ⟨other, skipped, taken, waits, handed, toAll⟩

end Sys2Proof.Machine
end

section
/-! SUPPORT. An answer in the RESPONSE outbox that finds no room in the Return Queue stands there (R145, R151). -/

namespace Sys2Proof.Machine

/-- The answer `f` stands in the RESPONSE outbox without room in the Return Queue, and no head is examined: the front is still, or another
answer waits for the outbox. -/
structure AnswerStands (f : Frame) (s : State) : Prop where
  response : s.rtq.response = some f
  unheld : s.rtq.responseHeld = false
  full : s.outboxRoom = false
  front : s.frontStill ∨ ∃ g, s.mga = .answerWait g

theorem outboxRoom_congr {s t : State} (back : t.rtq.queue = s.rtq.queue) (margin : t.lnk.margin = s.lnk.margin) :
    t.outboxRoom = s.outboxRoom := by
  unfold State.outboxRoom State.retFree
  rw [back, margin]

/-- What a consequence leaves of the RESPONSE outbox, the Return Queue and the agent. -/
structure SameAnswer (s t : State) : Prop where
  response : t.rtq.response = s.rtq.response
  held : t.rtq.responseHeld = s.rtq.responseHeld
  back : t.rtq.queue = s.rtq.queue
  margin : t.lnk.margin = s.lnk.margin
  agent : t.mga = s.mga

theorem Early.sameAnswer {s t : State} (h : Early s t) : SameAnswer s t := by
  obtain ⟨lnk, -, rtq⟩ := h.beside
  obtain ⟨-, -, mga, -⟩ := h.nearer
  exact ⟨by rw [rtq], by rw [rtq], by rw [rtq], by rw [lnk], mga⟩

theorem completeSafe_sameAnswer {s t : State} (h : completeSafe s = some t) : SameAnswer s t := by
  obtain ⟨-, ⟨-, rfl⟩ | ⟨-, rfl⟩⟩ := completeSafe_cases h
  · obtain ⟨x, d, o, eq⟩ := formSafeDrive_eq { s with mdc.redrive := false }
    rw [eq]
    exact ⟨rfl, rfl, rfl, rfl, rfl⟩
  · exact ⟨by simp, by simp, by simp, by simp, by simp⟩

theorem offerReport_sameAnswer {s t : State} (h : offerReport s = some t) : SameAnswer s t := by
  unfold offerReport at h
  split at h <;> cases h
  exact ⟨by simp, by simp, by simp, by simp, by simp⟩

/-- One consequence of the event leaves the answer where it stands. -/
theorem AnswerStands.react {f : Frame} {s t : State} (h : AnswerStands f s) (reacts : react s = some t) : AnswerStands f t := by
  obtain ⟨response, unheld, full, front⟩ := h
  have chooses : chooseVerify s = some t → Early s t := fun chosen => by
    rcases front with q | ⟨g, waits⟩
    · exact .inr (.inr ⟨t, chooseVerify_of_still q ▸ chosen, .inl rfl⟩)
    · have unexamined : examineHead s = none := by simp [examineHead, waits]
      cases action : verifyAction s with
      | none => simp [chooseVerify, action] at chosen
      | some v =>
        simp only [chooseVerify, action, unexamined, Option.some.injEq] at chosen
        exact .inr (.inr ⟨v, action, .inl chosen.symm⟩)
  have same : SameAnswer s t := by
    obtain h | h | h | h | h | h | h | h | h | h | h := react_cases reacts
    · exact Early.sameAnswer (.inl h)
    · exact Early.sameAnswer (.inr (.inl h))
    · exact (chooses h).sameAnswer
    · exact completeSafe_sameAnswer h
    · simp [endHold, unheld] at h
    · simp [offerAnswer, response] at h
    · exact offerReport_sameAnswer h
    · rcases front with q | ⟨g, waits⟩
      · have deal := examineHead_still q h
        exact ⟨by simp [dealAtChainEnd_frame s deal], by simp [dealAtChainEnd_frame s deal], by simp [dealAtChainEnd_frame s deal],
          by simp [dealAtChainEnd_frame s deal], by simp [dealAtChainEnd_frame s deal]⟩
      · simp [examineHead, waits] at h
    · simp [admissionPass, State.outboxReady, full] at h
    · exact ⟨by simp [startTxB_frame s h], by simp [startTxB_frame s h], by simp [startTxB_frame s h],
        by simp [startTxB_frame s h], by simp [startTxB_frame s h]⟩
    · exact ⟨by simp [startTxA_frame s h], by simp [startTxA_frame s h], by simp [startTxA_frame s h],
        by simp [startTxA_frame s h], by simp [startTxA_frame s h]⟩
  exact ⟨same.response.trans response, same.held.trans unheld, (outboxRoom_congr same.back same.margin).trans full,
    front.imp (react_kept · reacts |>.still ‹_›) fun ⟨g, waits⟩ => ⟨g, same.agent.trans waits⟩⟩

theorem AnswerStands.settle {f : Frame} {s : State} (h : AnswerStands f s) (n : Nat) : (settle n s).rtq.response = some f :=
  (settle_keeps (P := AnswerStands f) (R := fun _ _ => True) (fun _ => trivial) (fun _ _ _ _ _ => trivial)
    (fun _ _ h reacts => ⟨h.react reacts, trivial⟩) n s h).1.response

/-- A head that is released leaves the answer standing. -/
theorem AnswerStands.released {f : Frame} {s : State} {x : FwdEntry} (response : s.rtq.response = some f)
    (unheld : s.rtq.responseHeld = false) (full : s.outboxRoom = false) (up : s.lnk.b.link = .up) :
    AnswerStands f (releaseHead x s) := by
  rw [releaseHead_up up]
  exact ⟨response, unheld, full, .inl (.inr (.inr (.inl ⟨_, _, rfl, .inr ⟨rfl, up⟩⟩)))⟩

theorem AnswerStands.taken {f : Frame} {s : State} {x : FwdEntry} (response : s.rtq.response = some f)
    (unheld : s.rtq.responseHeld = false) (full : s.outboxRoom = false) (up : s.lnk.b.link = .up) :
    AnswerStands f (take x s) := by
  cases found : s.tbs.stepRecord x.frame with
  | none =>
    rw [take_pathless found]
    exact .released response unheld full up
  | some p =>
    rw [take_present found]
    exact ⟨response, unheld, full, .inl (.inr (.inr (.inl ⟨_, _, takeRecord_queue x p s, .inl rfl⟩)))⟩

theorem AnswerStands.preempted {f : Frame} {s : State} {x : FwdEntry} (free : ∀ y ∈ s.fwq.queue.head?, y.status ≠ .held)
    (response : s.rtq.response = some f) (unheld : s.rtq.responseHeld = false) (full : s.outboxRoom = false)
    (up : s.lnk.b.link = .up) : AnswerStands f (preemptAndTake x s) := by
  rw [preemptAndTake_eq]
  have ended := preemptedState_preempted free
  have kept : (preemptedState s).rtq.responseHeld = s.rtq.responseHeld ∧ (preemptedState s).rtq.response = s.rtq.response := by
    have keeps := (endStep_keeps .preempted (if s.ste.st = .actuating then cancelPending s else s)).2
    have same : (if s.ste.st = .actuating then cancelPending s else s).rtq = s.rtq := by split <;> simp
    rwa [same] at keeps
  exact .taken (kept.2.trans response) (kept.1.trans unheld)
    ((outboxRoom_congr ended.back ended.straps.2).trans full) (ended.link.trans up)

section
variable {y : FwdEntry} {rest : List FwdEntry} {s : State} (h : HeadOpen y rest s)
include h

/-- Without room for the report in the outbox, a head that is not treated keeps the front still (R49). -/
theorem HeadOpen.still_of_untreated (full : s.outboxRoom = false) (report : offerReport s = none)
    (untreated : treatHead y s = none) : s.frontStill := by
  have barred : s.rtq.report ≠ none → s.reportBarred := fun occupied => by
    refine ⟨occupied, ?_⟩
    have none_ : s.room = 0 := outboxRoom_eq_false_iff.mp full
    unfold State.room at none_
    omega
  obtain ⟨step, offered⟩ : y.frame.isStep = true ∧ ¬(s.lnk.transparent || decide (s.mdc.mode ≠ .run)) = true := by
    unfold treatHead at untreated
    split at untreated
    · next step =>
      split at untreated
      · cases untreated
      · next no => exact ⟨step, no⟩
    · split at untreated
      · cases untreated
      · split at untreated <;> cases untreated
  obtain ⟨addressed, run⟩ : s.lnk.transparent = false ∧ s.mdc.mode = .run := by simpa using offered
  have untaken : ordinaryTake s = false ∧ preemptiveTake s y.frame = false := by
    rw [treatHead_offered step run addressed] at untreated
    unfold offerStep at untreated
    split at untreated
    · cases untreated
    · split at untreated
      · cases untreated
      · next no no' => exact ⟨by simpa using no, by simpa using no'⟩
  have bars : s.stepBarred y.frame := by
    by_cases latch : s.csd.latch = []
    · have clear : s.csd.latchEmpty = true := latchEmpty_iff.mpr latch
      cases state : s.ste.st with
      | idle => simp [ordinaryTake, state, clear] at untaken
      | checking => exact .inr (.inl state)
      | reportWait =>
        refine .inr (.inr (.inr ⟨state, ?_⟩))
        cases pending : s.ste.report with
        | none => exact .inl rfl
        | some g => exact .inr (barred fun empty => by simp [offerReport, state, pending, empty] at report)
      | muting | actuating | settling =>
        refine .inr (.inr (.inl ⟨by simp [Ste.holdsStep, state], ?_⟩))
        cases preempts : y.frame.preempt with
        | false => exact .inl rfl
        | true => exact .inr (barred fun empty => by simp [preemptiveTake, state, preempts, empty, clear] at untaken)
    · exact .inl latch
  exact .inr (.inr (.inr ⟨run, addressed, y, rest, h.queue, h.waiting, step, bars⟩))

/-- However the head is treated, the answer stands. -/
theorem HeadOpen.answerStands {f : Frame} (response : s.rtq.response = some f) (full : s.outboxRoom = false)
    (other : y.frame.kind = kindRequest → asksSoftReset y.frame = false) {t : State} (treated : treatHead y s = some t) :
    AnswerStands f t := by
  unfold treatHead at treated
  split at treated
  · split at treated
    · cases treated
      exact .released response h.unheld full h.up
    · unfold offerStep at treated
      split at treated
      · cases treated
        exact .taken response h.unheld full h.up
      · split at treated <;> cases treated
        exact .preempted (by simp [h.queue, h.waiting]) response h.unheld full h.up
  · split at treated
    · next own =>
      cases treated
      have noReset := other (by simp only [requestFor, Bool.and_eq_true, beq_iff_eq] at own; exact own.1.1)
      obtain ⟨held, back, -, -, margin, -, occupied⟩ := handRequest_inService (f := y.frame) (s := departFwd s) noReset
      have unheld := held.trans (by simpa using h.unheld)
      obtain ⟨stands, agent⟩ := occupied f (by simpa using response)
      exact ⟨stands, unheld, (outboxRoom_congr (back.trans (by simp)) (margin.trans (by simp))).trans full,
        agent.imp (fun serving => .inr (.inl ⟨⟨_, serving⟩, unheld⟩)) id⟩
    · split at treated <;> cases treated
      · next all =>
        have noReset := other (by simp only [requestFor, Bool.and_eq_true, beq_iff_eq] at all; exact all.1.1)
        obtain ⟨held, back, queue, link, margin, -, occupied⟩ := handBroadcast_inService (x := y) h.up noReset
        exact ⟨(occupied f response).1, held.trans h.unheld, (outboxRoom_congr back margin).trans full,
          .inl (.inr (.inr (.inl ⟨_, _, queue (by simp), .inr ⟨rfl, link.trans h.up⟩⟩)))⟩
      · exact .released response h.unheld full h.up

/-- An answer without room in the Return Queue stands through the examination of the head and what follows. -/
theorem HeadOpen.response_stands {f : Frame} (rested : s.Rested) (report : offerReport s = none)
    (response : s.rtq.response = some f) (full : s.outboxRoom = false)
    (other : y.frame.kind = kindRequest → asksSoftReset y.frame = false) (n : Nat) :
    (settle (n + 1) s).rtq.response = some f := by
  cases treated : treatHead y s with
  | some t =>
    rw [h.settle_treated rested report treated]
    exact (h.answerStands response full other treated).settle n
  | none =>
    have stands : AnswerStands f s := ⟨response, h.unheld, full, .inl (h.still_of_untreated full report treated)⟩
    exact stands.settle _

end

end Sys2Proof.Machine
end

section
/-! SUPPORT. The events that let an idle agent examine a waiting head, or the chain end deal with a released one (R130, R138, R139, R142,
R151). -/

namespace Sys2Proof.Machine

/-! ## The end of the transmission of the released head before it -/

theorem forwarded_only (s : State) (x : Tx) : ChainOnly s (compareFwd (s.forwarded x)) := by
  have before : ChainOnly s (s.forwarded x) := ⟨rfl, rfl, rfl, rfl, rfl, rfl, rfl, rfl, rfl, rfl⟩
  exact before.trans ⟨by simp, by simp, by simp, by simp, by simp, by simp, by simp, by simp, by simp, by simp⟩

theorem settled_forwarded {s : State} {x y : FwdEntry} {rest : List FwdEntry} {t : Tx} (c : s.complete)
    (up : s.lnk.b.link = .up) (idle : s.mga = .idle) (unheld : s.rtq.responseHeld = false)
    (queue : s.fwq.queue = x :: y :: rest) (waiting : y.status = .waiting) (sending : s.lnk.b.tx = some t)
    (source : t.source = .forwardHead) : Examined s y rest (settled (endTransmission .b s)) := by
  obtain ⟨-, -, -, -, -, -, report, -⟩ := complete_parts c
  obtain ⟨e, ended⟩ : ∃ e, e = compareFwd (s.forwarded t) := ⟨_, rfl⟩
  have only : ChainOnly s e := ended ▸ forwarded_only s t
  have chain : e.rtq = s.rtq ∧ e.lnk.b.link = s.lnk.b.link ∧ e.lnk.addr = s.lnk.addr ∧ e.fwq.queue = y :: rest := by
    rw [ended]
    simp [State.forwarded, PortState.ended, State.setPort, queue]
  obtain ⟨rtq, link, addr, queue'⟩ := chain
  have head : HeadOpen y rest e := ⟨only.mga.trans idle, only.held.trans unheld, link.trans up, queue', waiting⟩
  have examined := head.examined (only.rested c.rested) (offerReport_congr only.ste (by rw [rtq]) report) 4095
  rw [endTransmission_forwardHead sending source, ← ended]
  exact examined.congr addr (by rw [only.mdc]) (by rw [only.ste]) (by rw [only.csd]) (by rw [only.tbs])

/-! ## The admission of one frame (R145) -/

/-- A transmission of the Return Queue's head has ended, with room for one outbox frame alone. -/
structure OneLeaves (s e : State) : Prop where
  only : ChainOnly s e
  rtq : e.rtq = { s.rtq with queue := s.rtq.queue.tail }
  fwq : e.fwq = s.fwq
  link : e.lnk.b.link = s.lnk.b.link
  straps : e.lnk.addr = s.lnk.addr ∧ e.lnk.margin = s.lnk.margin
  room : e.room = 1

theorem oneLeaves {s : State} {t : Tx} (sending : s.lnk.a.tx = some t) (source : t.source = .returnHead)
    (full : s.rtq.queue.length + marginEntries s.lnk.margin = 24) : OneLeaves s (endTransmission .a s) := by
  obtain ⟨only, rtq, fwq, link, margin, addr⟩ := endTransmission_returned sending source
  refine ⟨only, rtq, fwq, link, ⟨addr, margin⟩, ?_⟩
  have small : marginEntries s.lnk.margin ≤ 8 := by cases s.lnk.margin <;> decide
  rw [State.room, rtq, margin]
  simp only [List.length_tail]
  omega

/-- The pass takes the one frame that is offered first, and leaves no room. -/
structure OneJoins (e v : State) (g : Frame) : Prop where
  pass : admissionPass e = some v
  queue : v.rtq.queue = e.rtq.queue ++ [ownEntry g]
  full : v.outboxRoom = false
  rested : e.Rested → v.Rested
  agent : v.mga = e.mga
  engine : v.ste = e.ste
  control : v.mdc = e.mdc ∧ v.csd = e.csd ∧ v.tbs = e.tbs
  held : v.rtq.responseHeld = e.rtq.responseHeld
  fwq : v.fwq = e.fwq
  link : v.lnk.b.link = e.lnk.b.link
  straps : v.lnk.addr = e.lnk.addr

theorem oneJoins {e : State} {g : Frame} {l : List Frame} (room : e.room = 1)
    (offers : e.alertOffer.toList ++ e.responseOffer.toList ++ e.rtq.echo.toList ++ e.rtq.report.toList = g :: l) :
    ∃ v, OneJoins e v g ∧ Admitted e v := by
  obtain ⟨v, pass⟩ : ∃ v, admissionPass e = some v := by
    cases pass : admissionPass e with
    | some v => exact ⟨v, rfl⟩
    | none =>
      have joined := (admissionPass_admitted e).joined.queue
      rw [pass, Option.getD_none, offers, State.joined, room] at joined
      simp at joined
  have admitted := admissionPass_admitted e
  rw [pass, Option.getD_some] at admitted
  have same := admissionPass_frame e pass
  have joined := admitted.joined
  rw [offers] at joined
  refine ⟨v, ⟨pass, ?_, ?_, fun rested => ?_, by simp [same], by simp [same], by simp [same], by simp [same], by simp [same],
    by simp [same], by simp [same]⟩, admitted⟩
  · rw [joined.queue, State.joined, room]
    rfl
  · rw [outboxRoom_eq_false_iff, joined.room, room]
    simp
  · exact rested.across (by simp [same]) (by simp [same]) (by simp [same]) (by simp [same]) (by simp [same]) (by simp [same])

/-- The pass is the first consequence of the event where neither the agent nor the engine has anything to place, and no head is due. -/
theorem OneJoins.settled_eq {e v : State} {g : Frame} (h : OneJoins e v g) (rested : e.Rested) (answer : offerAnswer e = none)
    (report : offerReport e = none) (undue : examineHead e = none) : settled e = settle 4095 v := by
  have first : react e = some v := by
    rw [rested.react_eq, answer, report, undue, h.pass]
    rfl
  change settle (4095 + 1) e = _
  rw [settle, first]

/-! ## The admission of a response (R145, R151) -/

/-- The admission of a response lets the answer that kept the agent busy enter the RESPONSE outbox, and the head is examined. -/
theorem settled_responseLeaves {s : State} {y : FwdEntry} {rest : List FwdEntry} {f : Frame} {t : Tx} (c : s.complete)
    (up : s.lnk.b.link = .up) (waits : s.mga = .answerWait f) (unheld : s.rtq.responseHeld = false)
    (queue : s.fwq.queue = y :: rest) (waiting : y.status = .waiting) (sending : s.lnk.a.tx = some t)
    (source : t.source = .returnHead) (alert : s.rtq.alert = none)
    (full : s.rtq.queue.length + marginEntries s.lnk.margin = 24) :
    Examined s y rest (settled (endTransmission .a s)) ∧
      ((y.frame.kind = kindRequest → asksSoftReset y.frame = false) →
        (settled (endTransmission .a s)).rtq.response = some f) := by
  obtain ⟨-, -, -, -, -, answer, report, -⟩ := complete_parts c
  obtain ⟨only, rtq, fwq, link, ⟨addr, -⟩, room⟩ := oneLeaves sending source full
  obtain ⟨e, ended⟩ : ∃ e, e = endTransmission .a s := ⟨_, rfl⟩
  rw [← ended] at only rtq fwq link addr room ⊢
  obtain ⟨g, response⟩ : ∃ g, s.rtq.response = some g := by
    cases response : s.rtq.response with
    | some g => exact ⟨g, rfl⟩
    | none => simp [offerAnswer, waits, response] at answer
  have report' : offerReport e = none := offerReport_congr only.ste (by rw [rtq]) report
  have answer' : offerAnswer e = none := offerAnswer_congr only.mga only.response answer
  have undue : examineHead e = none := by simp [examineHead, only.mga, waits]
  have rested := only.rested c.rested
  obtain ⟨v, joins, admitted⟩ := oneJoins (g := g) (l := e.rtq.echo.toList ++ e.rtq.report.toList) room (by
    simp [State.alertOffer, State.responseOffer, rtq, alert, response, unheld])
  have emptied : v.rtq.response = none := by
    rw [admitted.response, if_pos ⟨by simp [State.alertOffer, rtq, alert, room], only.held.trans unheld⟩]
  have left : v.rtq.report = e.rtq.report := by
    rw [admitted.report, if_neg (by simp [State.alertOffer, State.responseOffer, rtq, alert, response, unheld, room])]
  obtain ⟨w, placed⟩ : ∃ w, w = { v with rtq.response := some f, mga := .idle } := ⟨_, rfl⟩
  have offers : react v = some w := by
    have due : offerAnswer v = some w := by simp [offerAnswer, joins.agent, only.mga, waits, emptied, placed]
    rw [(joins.rested rested).react_eq, due]
    rfl
  have rested' : w.Rested := by
    rw [placed]
    exact (joins.rested rested).across rfl ⟨rfl, rfl⟩ rfl rfl ⟨rfl, rfl⟩ rfl
  have report'' : offerReport w = none :=
    offerReport_congr (s := e) (by rw [placed]; exact joins.engine) (by rw [placed]; exact left) report'
  have head : HeadOpen y rest w := by
    rw [placed]
    exact ⟨rfl, joins.held.trans (only.held.trans unheld), joins.link.trans (link.trans up), by
      rw [← queue, ← fwq, ← joins.fwq], waiting⟩
  have after : settled e = settle (4093 + 1) w := by
    rw [joins.settled_eq rested answer' report' undue]
    change settle (4094 + 1) v = _
    rw [settle, offers]
  rw [after]
  obtain ⟨mdc, csd, tbs⟩ := joins.control
  refine ⟨(head.examined rested' report'' 4093).congr ?_ ?_ ?_ ?_ ?_, fun other => ?_⟩
  · rw [placed]
    exact joins.straps.trans addr
  · rw [placed]
    exact congrArg Mdc.mode (mdc.trans only.mdc)
  · rw [placed]
    exact congrArg Ste.st (joins.engine.trans only.ste)
  · rw [placed]
    exact congrArg Csd.latch (csd.trans only.csd)
  · rw [placed]
    exact congrArg Tbs.paths (tbs.trans only.tbs)
  · exact head.response_stands rested' report'' (by rw [placed]) (by rw [placed]; exact joins.full) other 4093

/-! ## The echo outbox at the chain end (R142) -/

/-- The admission of the waiting echo lets the released head become an echo. -/
theorem settled_echoLeaves {s : State} {x : FwdEntry} {rest : List FwdEntry} {g : Frame} {t : Tx} (quiet : s.headQuiet)
    (c : s.complete) (idle : s.mga = .idle) (addressed : s.lnk.transparent = false) (down : s.lnk.b.link = .down)
    (queue : s.fwq.queue = x :: rest) (released : x.status = .released) (step : x.frame.isStep = true)
    (echo : s.rtq.echo = some g) (sending : s.lnk.a.tx = some t) (source : t.source = .returnHead) (alert : s.rtq.alert = none)
    (response : s.rtq.response = none) (full : s.rtq.queue.length + marginEntries s.lnk.margin = 24)
    (next : ∀ y ∈ rest.head?, y.status ≠ .released) :
    let u := settled (endTransmission .a s)
    u.fwq.queue = rest ∧ ownEntry g ∈ u.rtq.queue ∧ u.rtq.echo = some (echoOf s.lnk x.frame) := by
  intro u
  obtain ⟨-, -, -, -, -, answer, report, -⟩ := complete_parts c
  obtain ⟨only, rtq, fwq, link, ⟨addr, -⟩, room⟩ := oneLeaves sending source full
  obtain ⟨e, ended⟩ : ∃ e, e = endTransmission .a s := ⟨_, rfl⟩
  simp only [u]
  rw [← ended] at only rtq fwq link addr room ⊢
  have answer' : offerAnswer e = none := offerAnswer_congr only.mga only.response answer
  have report' : offerReport e = none := offerReport_congr only.ste (by rw [rtq]) report
  have transparent : e.lnk.transparent = false := by rw [Lnk.transparent, addr]; exact addressed
  have quiet' : e.headQuiet := by unfold State.headQuiet; rw [fwq]; exact quiet
  have undue : examineHead e = none := (examineHead_eq_none_iff quiet').mpr fun _ =>
    dealAtChainEnd_eq_none_iff.mpr fun y l _ head _ => by
      rw [fwq, queue] at head
      cases head
      exact ⟨step, transparent, by rw [rtq]; simp [echo]⟩
  have rested := only.rested c.rested
  obtain ⟨v, joins, admitted⟩ := oneJoins (g := g) (l := e.rtq.report.toList) room (by
    simp [State.alertOffer, State.responseOffer, rtq, alert, response, echo])
  have free : v.rtq.echo = none := by
    rw [admitted.echo, if_pos (by simp [State.alertOffer, State.responseOffer, rtq, alert, response, room])]
  have left : v.rtq.report = e.rtq.report := by
    rw [admitted.report, if_neg (by simp [State.alertOffer, State.responseOffer, rtq, alert, response, echo, room])]
  have stands : AtChainEnd x rest v := ⟨by unfold State.headQuiet; rw [joins.fwq]; exact quiet',
    joins.agent.trans (only.mga.trans idle), joins.link.trans (link.trans down), by rw [joins.fwq, fwq, queue], released,
    fun _ => free⟩
  have echoes : dealAtChainEnd v = some (departFwd { v with rtq.echo := some (echoOf v.lnk x.frame) }) :=
    dealAtChainEnd_echo stands.down stands.head released step
      (by rw [Lnk.transparent, joins.straps, addr]; exact addressed) free
  obtain ⟨w, dealt⟩ : ∃ w, w = departFwd { v with rtq.echo := some (echoOf v.lnk x.frame) } := ⟨_, rfl⟩
  have same : echoOf v.lnk x.frame = echoOf s.lnk x.frame := by
    unfold echoOf ownFrame Lnk.addrByte
    rw [joins.straps, addr]
  have deals : react v = some w := by
    have answer'' : offerAnswer v = none := by simp [offerAnswer, stands.idle]
    have due : examineHead v = some w := by
      unfold examineHead
      rw [stands.idle, stands.head]
      dsimp only
      rw [released]
      exact echoes.trans (congrArg some dealt.symm)
    rw [(joins.rested rested).react_eq, answer'', offerReport_congr joins.engine left report', due]
    rfl
  have after : settled e = settle 4094 w := by
    rw [joins.settled_eq rested answer' report' undue]
    change settle (4094 + 1) v = _
    rw [settle, deals]
  have queue' : w.fwq.queue = rest := by rw [dealt]; simp [stands.head]
  have echo' : w.rtq.echo = some (echoOf s.lnk x.frame) := by rw [dealt]; simp [same]
  have bars : EchoBars w :=
    { quiet := fun y mem => stands.quiet y (by rw [stands.head]; exact .tail _ (queue' ▸ mem))
      step := fun y mem released => absurd released (next y (queue' ▸ mem))
      occupied := by simp [echo']
      full := (outboxRoom_congr (s := v) (by rw [dealt]; simp) (by rw [dealt]; simp)).trans joins.full }
  obtain ⟨rests, stays⟩ := bars.settle 4094
  have back := (settle_kept 4094 w (.inl bars.quiet)).1.back
  rw [after]
  refine ⟨rests.trans queue', back.subset ?_, stays.trans echo'⟩
  rw [dealt]
  simp [joins.queue]

/-- A link that comes UP before sends the released head instead. -/
theorem settled_broughtUp {s : State} {x : FwdEntry} {rest : List FwdEntry} (quiet : s.headQuiet) (c : s.complete)
    (down : s.lnk.b.link = .down) (queue : s.fwq.queue = x :: rest) (released : x.status = .released)
    (idleTx : s.lnk.b.tx = none) (go : s.lnk.b.received = .go) (slot : s.fwq.slot = none) :
    let u := settled (bringUp .b s)
    u.fwq.queue = x :: rest ∧ u.rtq.echo = s.rtq.echo ∧
      u.lnk.b.tx = some (begun .forwardHead (x.frame.wireBytes x.own s.lnk.sense)) := by
  intro u
  obtain ⟨-, -, -, -, -, answer, report, -, pass, -⟩ := complete_parts c
  obtain ⟨e, raised⟩ : ∃ e, e = bringUp .b s := ⟨_, rfl⟩
  have effect := raised.trans (bringUp_down (p := .b) down idleTx)
  simp only [u]
  rw [← raised]
  have only : ChainOnly s e := effect ▸ setPort_only s .b _
  have up : e.lnk.b.link = .up := by rw [effect]; rfl
  have fwq : e.fwq = s.fwq := by rw [effect]; simp
  have rtq : e.rtq = s.rtq := by rw [effect]; simp
  have quiet' : e.headQuiet := by unfold State.headQuiet; rw [fwq]; exact quiet
  have sends : e.OnlySends :=
    { rested := only.rested c.rested
      answer := offerAnswer_congr only.mga only.response answer
      report := offerReport_congr only.ste (by rw [rtq]) report
      front := .inl quiet'
      undue := (examineHead_eq_none_iff quiet').mpr fun _ => dealAtChainEnd_eq_none_iff.mpr fun y l down' => by
        rw [up] at down'
        cases down'
      pass := admissionPass_congr rtq (by rw [effect]; simp) pass }
  refine ⟨((settled_kept e sends.front).1.forwardKept (.inl up)).1.trans (by rw [fwq, queue]),
    congrArg Rtq.echo ((sends.settle_rtq 4094).trans rtq), ?_⟩
  have tx := sends.settle_txB 4094 up (by rw [effect]; exact idleTx)
  rw [nextB_head (s := e) (by rw [fwq]; exact slot) (by rw [fwq]; exact queue) released (by rw [effect]; exact go)] at tx
  refine tx.trans ?_
  rw [effect]
  rfl

end Sys2Proof.Machine
end

section
/-! SUPPORT. A step frame that waits at the head is examined by an engine that has become IDLE, once what comes before has been done (R49 to
R51, R61, R87, R101). -/

namespace Sys2Proof.Machine

/-- A step frame waits at the head of an addressed part in RUN, with Port B's link UP, the agent and the engine idle. -/
structure StepDue (y : FwdEntry) (rest : List FwdEntry) (s : State) : Prop where
  run : s.mdc.mode = .run
  addressed : s.lnk.transparent = false
  up : s.lnk.b.link = .up
  idle : s.mga = .idle
  queue : s.fwq.queue = y :: rest
  waiting : y.status = .waiting
  step : y.frame.isStep = true
  resting : s.ste.st = .idle

/-- Consequences that may come before the take. -/
def BeforeTake (s t : State) : Prop := Early s t ∨ endHold s = some t

theorem BeforeTake.kept {s t : State} (h : BeforeTake s t) : Kept s t := by
  rcases h with early | ends
  · exact (Prior.kept (.inl early)).1
  · exact endHold_kept ends

theorem BeforeTake.toDo {s t : State} (h : BeforeTake s t) : t.toDo < s.toDo := h.elim Early.toDo endHold_toDo

theorem BeforeTake.control {s t : State} (h : BeforeTake s t) : t.mdc = s.mdc ∧ t.ste.st = s.ste.st ∧ t.fwq = s.fwq := by
  rcases h with early | ends
  · obtain ⟨-, mdc, -, st, -⟩ := early.nearer
    exact ⟨mdc, st, early.beside.fwq⟩
  · simp [endHold_frame s ends]

/-- The take, after a free choice against a verify perhaps (R101). -/
def Takes (y : FwdEntry) (s t : State) : Prop := t = take y s ∨ t = (take y s).chose

section
variable {y : FwdEntry} {rest : List FwdEntry} {s : State} (h : StepDue y rest s)
include h

theorem StepDue.next {t : State} (before : BeforeTake s t) : StepDue y rest t := by
  obtain ⟨mdc, st, fwq⟩ := before.control
  have kept := before.kept.1
  exact ⟨by rw [mdc]; exact h.run, by rw [Lnk.transparent, kept.straps.1]; exact h.addressed, kept.links.2.trans h.up,
    kept.agentIdle h.idle, by rw [fwq]; exact h.queue, h.waiting, h.step, st.trans h.resting⟩

theorem StepDue.examines (clear : s.csd.latch = []) : examineHead s = some (take y s) :=
  (examineHead_waiting h.idle h.queue h.waiting).trans
    ((treatHead_offered h.step h.run h.addressed).trans (offerStep_idle h.resting clear y))

/-- With the supply latch list empty, the next consequence comes before the take or is the take (R49, R101). -/
theorem StepDue.react (clear : s.csd.latch = []) : ∃ t, react s = some t ∧ (BeforeTake s t ∨ Takes y s t) := by
  have examined := h.examines clear
  have answer : offerAnswer s = none := by simp [offerAnswer, h.idle]
  have report : offerReport s = none := by simp [offerReport, h.resting]
  have safe : completeSafe s = none := by simp [completeSafe, safeComplete, h.run]
  cases restarts : restartEvaluation s with
  | some t => exact ⟨t, by simp [Machine.react, restarts], .inl (.inl (.inl restarts))⟩
  | none =>
  cases pass : makePass s with
  | some t => exact ⟨t, by simp [Machine.react, restarts, pass], .inl (.inl (.inr (.inl pass)))⟩
  | none =>
  cases chooses : chooseVerify s with
  | some t =>
    refine ⟨t, by simp [Machine.react, restarts, pass, chooses], ?_⟩
    cases action : verifyAction s with
    | none => simp [chooseVerify, action] at chooses
    | some v =>
      simp only [chooseVerify, action, examined] at chooses
      split at chooses
      · split at chooses <;> cases chooses
        · exact .inl (.inl (.inr (.inr ⟨v, action, .inr rfl⟩)))
        · exact .inr (.inr rfl)
      · cases chooses
        exact .inl (.inl (.inr (.inr ⟨_, action, .inl rfl⟩)))
  | none =>
  cases ends : endHold s with
  | some t => exact ⟨t, by simp [Machine.react, restarts, pass, chooses, safe, ends], .inl (.inr ends)⟩
  | none =>
    exact ⟨_, by simp [Machine.react, restarts, pass, chooses, safe, ends, answer, report, examined], .inr (.inl rfl)⟩

end

/-- The frame has been offered to the idle engine in the state `v`, with the latch list empty: from there the state `t` of the take is
reached, and the consequences that follow. -/
structure Offered (y : FwdEntry) (rest : List FwdEntry) (s v t : State) : Prop where
  kept : Kept s v
  due : StepDue y rest v
  takes : Takes y v t

theorem StepDue.settle_offered {y : FwdEntry} {rest : List FwdEntry} (n : Nat) {s : State} (h : StepDue y rest s)
    (clear : s.csd.latch = []) (fuel : s.toDo < n) : ∃ v t m, Offered y rest s v t ∧ settle n s = settle m t := by
  induction n generalizing s with
  | zero => omega
  | succ n ih =>
    obtain ⟨t, reacts, before | takes⟩ := h.react clear
    · have kept := before.kept
      have nearer := before.toDo
      obtain ⟨v, t', m, ⟨kept', due, takes⟩, settles⟩ := ih (h.next before) (kept.2.recovery.2.1.trans clear) (by omega)
      exact ⟨v, t', m, ⟨kept.trans kept', due, takes⟩, by rw [settle, reacts]; exact settles⟩
    · exact ⟨s, t, n, ⟨.refl s, h, takes⟩, by rw [settle, reacts]⟩

section
variable {y : FwdEntry} {rest : List FwdEntry} {s v t : State} (h : Offered y rest s v t)
include h

theorem Offered.took {p : PathRec} (path : s.tbs.stepRecord y.frame = some p) : Took y rest p t := by
  have path' : v.tbs.stepRecord y.frame = some p := by
    rw [h.kept.2.tables]
    exact path
  have took := take_took h.due.queue path'
  obtain rfl | rfl := h.takes
  · exact took
  · exact ⟨took.queue, took.state, took.snapshot, took.takeAt, took.ident⟩

theorem Offered.frontStill : t.frontStill := by
  have still : (take y v).frontStill := by
    cases found : v.tbs.stepRecord y.frame with
    | none =>
      rw [take_pathless found, releaseHead_up (show (pathlessState v).lnk.b.link = .up from h.due.up)]
      exact .inr (.inr (.inl ⟨_, _, rfl, .inr ⟨rfl, h.due.up⟩⟩))
    | some p => exact .inr (.inr (.inl ⟨_, _, (take_took h.due.queue found).queue, .inl rfl⟩))
  obtain rfl | rfl := h.takes
  · exact still
  · exact (Kept.chose _).still still

/-- The take leaves the Return Queue and the outboxes. -/
theorem Offered.rtq : t.rtq = v.rtq ∧ t.lnk.margin = v.lnk.margin := by
  have same : (take y v).rtq = v.rtq ∧ (take y v).lnk.margin = v.lnk.margin := by
    cases found : v.tbs.stepRecord y.frame with
    | none =>
      rw [take_pathless found, releaseHead_up (show (pathlessState v).lnk.b.link = .up from h.due.up)]
      exact ⟨rfl, rfl⟩
    | some p => rw [take_present found]; simp
  obtain rfl | rfl := h.takes
  exacts [same, same]

end

/-- What the examination leaves: the step taken, or, behind a supply latch list that is not empty, waiting. -/
theorem StepDue.examined {y : FwdEntry} {rest : List FwdEntry} {s : State} (h : StepDue y rest s) (n : Nat)
    (fuel : s.toDo < n) : Examined s y rest (settle n s) := by
  have request : y.frame.kind ≠ kindRequest := fun request => by
    have step := h.step
    simp [Frame.isStep, request, kindRequest, kindStep] at step
  refine ⟨fun other => ?_, fun _ skips => ?_, fun p _ _ _ _ clear path => ?_, fun _ _ _ bars => ?_, fun is => absurd is request,
    fun is => absurd is request⟩
  · rw [h.step] at other
    cases other
  · rcases skips with away | transparent
    · exact absurd h.run away
    · rw [h.addressed] at transparent
      cases transparent
  · obtain ⟨v, t, m, offered, settles⟩ := h.settle_offered n clear fuel
    rw [settles]
    obtain ⟨queue, state, snapshot, takeAt, ident⟩ := (offered.took path).settle m
    exact ⟨queue, state, snapshot, takeAt, ident⟩
  · have latch : s.csd.latch ≠ [] := by
      rcases bars with latch | checking | ⟨holds, -⟩
      · exact latch
      · rw [h.resting] at checking
        cases checking
      · simp [Ste.holdsStep, h.resting] at holds
    have still : s.frontStill :=
      .inr (.inr (.inr ⟨h.run, h.addressed, y, rest, h.queue, h.waiting, h.step, .inl latch⟩))
    exact ((settle_kept n s still).1.forwardKept (.inl h.up)).1.trans h.queue

/-- A report in the REPORT outbox without room in the Return Queue stands, and no frame leaves that queue. -/
theorem StepDue.report_stands {y : FwdEntry} {rest : List FwdEntry} {s : State} (h : StepDue y rest s) (n : Nat)
    (fuel : s.toDo < n) (barred : s.reportBarred) :
    (settle n s).rtq.report = s.rtq.report ∧ s.rtq.queue <+: (settle n s).rtq.queue := by
  by_cases latch : s.csd.latch = []
  · obtain ⟨v, t, m, offered, settles⟩ := h.settle_offered n latch fuel
    obtain ⟨rtq, margin⟩ := offered.rtq
    have kept := offered.kept.1
    have barred' : t.reportBarred := by
      unfold State.reportBarred
      rw [rtq, margin]
      exact kept.stillBarred barred
    have after := (settle_kept m t offered.frontStill).1
    rw [settles]
    refine ⟨(after.barred barred').1.trans (by rw [rtq, (kept.barred barred).1]), kept.back.trans ?_⟩
    rw [← rtq]
    exact after.back
  · have still : s.frontStill :=
      .inr (.inr (.inr ⟨h.run, h.addressed, y, rest, h.queue, h.waiting, h.step, .inl latch⟩))
    have kept := (settle_kept n s still).1
    exact ⟨(kept.barred barred).1, kept.back⟩

theorem StepDue.fuel {y : FwdEntry} {rest : List FwdEntry} {s : State} (h : StepDue y rest s) : s.toDo ≤ 27 := by
  have := s.toDo_le
  rwa [State.endings_up h.up] at this

end Sys2Proof.Machine
end

section
/-! PROOF. A waiting head is examined when it becomes the head, when the agent or the engine is free, and when the echo outbox empties at
the chain end (R48 to R51, R61, R87, R138 to R140, R142, R151; O14). -/

namespace Sys2Proof.Machine

/-! ## The events that leave the engine IDLE before a step frame that waits (R49, R61, R87) -/

/-- A step frame that waits is due once the engine is IDLE, where the mode, the agent, the queue, the link and the strap stand. -/
theorem StepBehind.due {s e : State} {t : Nat} {y : FwdEntry} {rest : List FwdEntry} (h : StepBehind s t y rest)
    (mode : e.mdc.mode = s.mdc.mode) (addr : e.lnk.addr = s.lnk.addr) (link : e.lnk.b.link = s.lnk.b.link)
    (mga : e.mga = s.mga) (queue : e.fwq.queue = s.fwq.queue) (resting : e.ste.st = .idle) : StepDue y rest e :=
  ⟨mode.trans h.mode, by rw [Lnk.transparent, addr]; exact h.addressed, link.trans h.link, mga.trans h.idle,
    queue.trans h.head, h.waiting, h.step, resting⟩

theorem StepDue.settled_examined {s e : State} {y : FwdEntry} {rest : List FwdEntry} (h : StepDue y rest e)
    (mode : e.mdc.mode = s.mdc.mode) (addr : e.lnk.addr = s.lnk.addr) (latch : e.csd.latch = s.csd.latch)
    (paths : e.tbs.paths = s.tbs.paths) : Examined { s with ste.st := .idle } y rest (settled e) :=
  (h.examined _ (lt_of_le_of_lt h.fuel (by decide))).congr addr mode h.resting latch paths

section
variable {s : State} {y : FwdEntry} {rest : List FwdEntry}

/-- The completion of the route request places the report (R61). -/
theorem examined_afterRoutes {time : Nat} {r : RouteRequest} {i : StepIdent} {o : StepOutcome} (h : StepBehind s time y rest)
    (waits : s.ste.st = .reportWait) (route : s.rev.route = some r) (ident : s.ste.ident = some i)
    (outcome : s.ste.outcome = some o) (reports : o ≠ .noPath) (outbox : s.rtq.report = none) :
    Examined { s with ste.st := .idle } y rest (settled (routesEffect time s)) := by
  have effect : routesEffect time s = buildReport r.results (routesTaken time s) := by
    simp only [routesEffect, route, routesTaken]
  rw [effect, buildReport_placed (s := routesTaken time s) (i := i) (o := o) r.results ident outcome reports waits outbox]
  obtain ⟨l, m, entered⟩ := enterIdle_eq { routesTaken time s with
    ste.report := none, ste.routes := routeTable r.results,
    rtq.report := some ((routesTaken time s).stepReport i o r.results) }
  rw [entered]
  refine StepDue.settled_examined (s := s) ?_ rfl rfl rfl rfl
  exact h.due rfl rfl rfl rfl rfl rfl

/-- A QUIET step ends at the expiry of its dwell (R56, R58). -/
theorem examined_afterQuiet {due : Nat} {i : StepIdent} (h : StepBehind s due y rest) (settling : s.ste.st = .settling)
    (dwell : s.ste.dwell = some due) (ident : s.ste.ident = some i) (quiet : i.quiet = true) :
    Examined { s with ste.st := .idle } y rest (settled (dwellEffect s)) := by
  have effect : dwellEffect s = endStep (settledOutcome s.ste) (s.advance due) := by simp only [dwellEffect, settling, dwell]
  obtain ⟨e, ended⟩ : ∃ e, e = endStep (settledOutcome s.ste) (s.advance due) := ⟨_, rfl⟩
  have queue : e.fwq.queue = s.fwq.queue := by
    rw [ended]
    exact endStep_queue (s := s.advance due) (by simp [h.head, h.waiting]) _
  have finished : e = enterIdle (endingAt (settledOutcome s.ste) (s.advance due)) := by
    rw [ended, endStep_eq_finish]
    refine finishStep_quiet (fun j same => ?_) _
    rw [endingAt_ste] at same
    have same : s.ste.ident = some j := same
    rw [ident] at same
    cases same
    exact quiet
  have resting : e.ste.st = .idle := by
    obtain ⟨l, m, entered⟩ := enterIdle_eq (endingAt (settledOutcome s.ste) (s.advance due))
    rw [finished, entered]
  have mode : e.mdc.mode = s.mdc.mode := by rw [ended]; simp [endStep_control]
  have addr : e.lnk.addr = s.lnk.addr := by rw [ended]; simp [endStep_eq_finish]
  rw [effect, ← ended]
  exact (h.due mode addr (by rw [ended]; simp) (by rw [ended]; simp) queue resting).settled_examined mode addr
    (by rw [ended]; simp) (by rw [ended]; simp)

/-- The verify requested for the last landed elements empties the supply latch list (R87). -/
theorem examined_afterRecovery {contacts : List (BitVec 7)} {b : Bank} {due : Nat} (h : StepBehind s due y rest)
    (resting : s.ste.st = .idle) (verifying : s.vfu.activity = .verifying b .recovery due)
    (landed : ∀ x ∈ s.csd.latch, x.state = .landed ∧ bankOf x.elem = b) :
    Examined { s with csd.latch := [] } y rest (settled (verifyEffect contacts s)) := by
  have same : (s.verified contacts b .recovery due).mdc = s.mdc ∧ (s.verified contacts b .recovery due).mga = s.mga ∧
      (s.verified contacts b .recovery due).lnk = s.lnk ∧ (s.verified contacts b .recovery due).fwq = s.fwq ∧
      (s.verified contacts b .recovery due).ste = s.ste ∧ (s.verified contacts b .recovery due).tbs = s.tbs := by
    simp [State.verified, completeFor]
  obtain ⟨mdc, mga, lnk, fwq, ste, tbs⟩ := same
  have emptied : (s.verified contacts b .recovery due).csd.latch = [] := by
    refine List.filter_eq_nil_iff.mpr fun x mem => ?_
    obtain ⟨is, bank⟩ := landed x (by simpa using mem)
    simp [is, bank]
  obtain ⟨e, effect⟩ : ∃ e, e = verifyEffect contacts s := ⟨_, rfl⟩
  have reached : e.mdc.mode = s.mdc.mode ∧ e.mga = s.mga ∧ e.lnk = s.lnk ∧ e.fwq = s.fwq ∧ e.ste = s.ste ∧ e.tbs = s.tbs ∧
      e.csd.latch = [] := by
    rw [effect]
    cases mismatched : bankMismatched s b contacts with
    | false =>
      rw [verifyEffect_agreed verifying mismatched]
      exact ⟨by rw [mdc], mga, lnk, fwq, ste, tbs, emptied⟩
    | true =>
      have run : (signal (.mismatch b) (s.verified contacts b .recovery due)).mdc.mode = .run := by simp [mdc, h.mode]
      rw [verifyEffect_mismatched verifying mismatched, takeMismatch, run]
      simp [mdc, mga, lnk, fwq, ste, tbs, emptied]
  obtain ⟨mode', mga', lnk', fwq', ste', tbs', latch'⟩ := reached
  have step := h.due mode' (by rw [lnk']) (by rw [lnk']) mga' (by rw [fwq']) (by rw [ste', resting])
  rw [← effect]
  exact (step.examined _ (lt_of_le_of_lt step.fuel (by decide))).congr (congrArg Lnk.addr lnk') mode' (congrArg Ste.st ste')
    latch' (congrArg Tbs.paths tbs')

/-- The admission of the report before it lets the pending report enter the REPORT outbox (R61, R145). -/
theorem examined_afterReport {time : Nat} {f g : Frame} {t : Tx} (h : StepBehind s time y rest)
    (waits : s.ste.st = .reportWait) (pending : s.ste.report = some f) (report : s.rtq.report = some g)
    (sending : s.lnk.a.tx = some t) (source : t.source = .returnHead) (alert : s.rtq.alert = none)
    (response : s.rtq.response = none) (echo : s.rtq.echo = none)
    (full : s.rtq.queue.length + marginEntries s.lnk.margin = 24) :
    let u := settled (endTransmission .a (s.advance time))
    Examined { s with ste.st := .idle } y rest u ∧ u.rtq.report = some f ∧ ownEntry g ∈ u.rtq.queue := by
  intro u
  obtain ⟨only, rtq, fwq, link, ⟨addr, -⟩, room⟩ := oneLeaves (s := s.advance time) sending source full
  obtain ⟨e, ended⟩ : ∃ e, e = endTransmission .a (s.advance time) := ⟨_, rfl⟩
  simp only [u]
  rw [← ended] at only rtq fwq link addr room ⊢
  have outboxes : e.rtq.alert = none ∧ e.rtq.response = none ∧ e.rtq.echo = none ∧ e.rtq.report = some g := by
    rw [rtq]
    exact ⟨alert, response, echo, report⟩
  obtain ⟨alert', response', echo', report'⟩ := outboxes
  have idle : e.mga = .idle := only.mga.trans h.idle
  have answered : offerAnswer e = none := by simp [offerAnswer, idle]
  have offered : offerReport e = none := by simp [offerReport, report']
  have mode : e.mdc.mode = .run := (congrArg Mdc.mode only.mdc).trans h.mode
  have addressed : e.lnk.transparent = false := by rw [Lnk.transparent, addr]; exact h.addressed
  have undue : examineHead e = none := by
    have waits' : e.ste.st = .reportWait := (congrArg Ste.st only.ste).trans waits
    exact (examineHead_waiting idle (by rw [fwq]; exact h.head) h.waiting).trans
      ((treatHead_offered h.step mode addressed).trans (offerStep_waits (.inl waits')))
  have rested := only.rested h.complete.rested
  obtain ⟨v, joins, admitted⟩ := oneJoins (g := g) (l := []) room (by
    simp [State.alertOffer, State.responseOffer, alert', response', echo', report'])
  have emptied : v.rtq.report = none := by
    rw [admitted.report, if_pos (by simp [State.alertOffer, State.responseOffer, alert', response', echo', room])]
  have engine : v.ste = s.ste := joins.engine.trans only.ste
  obtain ⟨w, placed⟩ : ∃ w, w = enterIdle { v with rtq.report := some f, ste.report := none } := ⟨_, rfl⟩
  have places : react v = some w := by
    have idle' : offerAnswer v = none := by simp [offerAnswer, joins.agent, idle]
    have due : offerReport v = some w := by simp [offerReport, engine, waits, pending, emptied, placed]
    rw [(joins.rested rested).react_eq, idle', due]
    rfl
  have after : settled e = settle 4094 w := by
    rw [joins.settled_eq rested answered offered undue]
    change settle (4094 + 1) v = _
    rw [settle, places]
  obtain ⟨l, m, entered⟩ := enterIdle_eq { v with rtq.report := some f, ste.report := none }
  rw [← placed] at entered
  obtain ⟨mdc, csd, tbs⟩ := joins.control
  have mode' : w.mdc.mode = s.mdc.mode := by rw [entered]; exact congrArg Mdc.mode (mdc.trans only.mdc)
  have addr' : w.lnk.addr = s.lnk.addr := by rw [entered]; exact joins.straps.trans addr
  have due : StepDue y rest w := h.due mode' addr' (by rw [entered]; exact joins.link.trans link)
    (by rw [entered]; exact joins.agent.trans only.mga) (by rw [entered]; exact congrArg Fwq.queue (joins.fwq.trans fwq))
    (by rw [entered])
  have barred : w.reportBarred := by
    have none_ : v.room = 0 := outboxRoom_eq_false_iff.mp joins.full
    unfold State.room at none_
    rw [entered]
    exact ⟨by simp, by dsimp only; omega⟩
  have fuel : w.toDo < 4094 := lt_of_le_of_lt due.fuel (by decide)
  obtain ⟨stands, back⟩ := due.report_stands 4094 fuel barred
  rw [after]
  refine ⟨(due.examined 4094 fuel).congr addr' mode' due.resting ?_ ?_, stands.trans (by rw [entered]), back.subset ?_⟩
  · rw [entered]
    exact congrArg Csd.latch (csd.trans only.csd)
  · rw [entered]
    exact congrArg Tbs.paths (tbs.trans only.tbs)
  · rw [entered]
    simp [joins.queue]

end

/-- Settles O14: each event that lets a waiting head be examined, by its own lemma. -/
theorem waitingHeadsAreExamined : Obligations.WaitingHeadsAreExamined := by
  refine ⟨fun time x y rest t s running c up idle unheld queue released waiting sending source => ?_,
    fun time y rest f t s running c up waits unheld queue waiting sending source alert full => ?_,
    fun time x rest g s running quiet c idle addressed down queue released step echo => ⟨?_, ?_⟩,
    fun y rest s => ⟨?_, ?_, ?_, ?_⟩⟩
  · have examined := settled_forwarded (s := s.advance time) c up idle unheld queue waiting sending source
    exact ⟨_, exec_transmissionEnd running, examined.congr (w := s.advance time) rfl rfl rfl rfl rfl⟩
  · obtain ⟨examined, response⟩ := settled_responseLeaves (s := s.advance time) c up waits unheld queue waiting sending source
      alert full
    exact ⟨_, exec_transmissionEnd running, examined.congr (w := s.advance time) rfl rfl rfl rfl rfl, response⟩
  · intro t sending source alert response full next
    obtain ⟨rests, joined, echoes⟩ := settled_echoLeaves (s := s.advance time) quiet c idle addressed down queue released step echo
      sending source alert response full next
    exact ⟨_, exec_transmissionEnd running, rests, joined, echoes⟩
  · intro idleTx go slot
    obtain ⟨rests, stays, sends⟩ := settled_broughtUp (s := s.advance time) quiet c down queue released idleTx go slot
    exact ⟨_, congrArg Host.Outcome.next (event_running (fun s => bringUp .b (s.advance time)) running), rests, stays.trans echo, sends⟩
  · intro time r i o behind waits route ident outcome reports outbox
    exact ⟨_, congrArg Host.Outcome.next (event_running (routesEffect time) behind.running),
      examined_afterRoutes behind waits route ident outcome reports outbox⟩
  · intro time f g t behind waits pending report sending source alert response echo full
    obtain ⟨examined, stands, joined⟩ := examined_afterReport behind waits pending report sending source alert response echo full
    exact ⟨_, exec_transmissionEnd behind.running, examined, stands, joined⟩
  · intro due i behind settling dwell ident quiet
    exact ⟨_, congrArg Host.Outcome.next (event_running dwellEffect behind.running),
      examined_afterQuiet behind settling dwell ident quiet⟩
  · intro contacts b due behind resting verifying landed
    exact ⟨_, exec_verifyComplete contacts behind.running, examined_afterRecovery behind resting verifying landed⟩

end Sys2Proof.Machine
end
